-- ==== Sys2Proof/Word.lean ====
section
/-!
DEFINITION. The machine's words (spec/00_scope.md R9, spec/10_state.md R20-R25): every value is
unsigned, bits are numbered from 0 at the least significant bit, and no operation sign-extends.
-/

namespace Sys2Proof

/-- A byte: a general register, a timer, a memory cell, the immediate `kk` (R20, R26, R27, R51). -/
abbrev Byte := BitVec 8

/-- Sixteen bits: `pc`, `I`, a stack entry, an instruction word (R22, R23, R25, R53). -/
abbrev Word := BitVec 16

/-- The 12-bit operand `nnn` (R72). -/
abbrev Addr := BitVec 12

/-- Four bits: a register number `x` or `y`, the sprite height `n`, a key index (R71, R72). -/
abbrev Nibble := BitVec 4

/-- The number of a general register, 0 to 15 (R20). -/
abbrev Reg := Nibble

end Sys2Proof
end

