-- ==== Sys2Proof/Syntax.lean ====
section
/-!
DEFINITION. The instructions: one constructor per row of spec/opcode_table.json, in the table's order
(spec/30_encoding.md R73). The fields are those of spec/00_scope.md R11 at their encoded widths, so
that every term is an instruction the encoding can hold (R75).
-/

namespace Sys2Proof

/-- The 34 instructions of R73. -/
inductive Instr where
  /-- `00E0` CLS (R171). -/
  | cls
  /-- `00EE` RET (R101). -/
  | ret
  /-- `1nnn` JP nnn (R102). -/
  | jp (nnn : Addr)
  /-- `2nnn` CALL nnn (R103). -/
  | call (nnn : Addr)
  /-- `3xkk` SE Vx, kk (R104). -/
  | seImm (x : Reg) (kk : Byte)
  /-- `4xkk` SNE Vx, kk (R105). -/
  | sneImm (x : Reg) (kk : Byte)
  /-- `5xy0` SE Vx, Vy (R106). -/
  | seReg (x y : Reg)
  /-- `6xkk` LD Vx, kk (R121). -/
  | ldImm (x : Reg) (kk : Byte)
  /-- `7xkk` ADD Vx, kk (R122). -/
  | addImm (x : Reg) (kk : Byte)
  /-- `8xy0` LD Vx, Vy (R123). -/
  | ldReg (x y : Reg)
  /-- `8xy1` OR Vx, Vy (R124). -/
  | orReg (x y : Reg)
  /-- `8xy2` AND Vx, Vy (R125). -/
  | andReg (x y : Reg)
  /-- `8xy3` XOR Vx, Vy (R126). -/
  | xorReg (x y : Reg)
  /-- `8xy4` ADD Vx, Vy (R127). -/
  | addReg (x y : Reg)
  /-- `8xy5` SUB Vx, Vy (R128). -/
  | sub (x y : Reg)
  /-- `8xy6` SHR Vx, Vy (R129). -/
  | shr (x y : Reg)
  /-- `8xy7` SUBN Vx, Vy (R130). -/
  | subn (x y : Reg)
  /-- `8xyE` SHL Vx, Vy (R131). -/
  | shl (x y : Reg)
  /-- `9xy0` SNE Vx, Vy (R107). -/
  | sneReg (x y : Reg)
  /-- `Annn` LD I, nnn (R150). -/
  | ldI (nnn : Addr)
  /-- `Bnnn` JP V0, nnn (R108). -/
  | jpV0 (nnn : Addr)
  /-- `Cxkk` RND Vx, kk (R132). -/
  | rnd (x : Reg) (kk : Byte)
  /-- `Dxyn` DRW Vx, Vy, n (R172). -/
  | drw (x y : Reg) (n : Nibble)
  /-- `Ex9E` SKP Vx (R181). -/
  | skp (x : Reg)
  /-- `ExA1` SKNP Vx (R182). -/
  | sknp (x : Reg)
  /-- `Fx07` LD Vx, DT (R183). -/
  | ldVxDt (x : Reg)
  /-- `Fx0A` LD Vx, K (R186). -/
  | ldVxK (x : Reg)
  /-- `Fx15` LD DT, Vx (R184). -/
  | ldDtVx (x : Reg)
  /-- `Fx18` LD ST, Vx (R185). -/
  | ldStVx (x : Reg)
  /-- `Fx1E` ADD I, Vx (R151). -/
  | addI (x : Reg)
  /-- `Fx29` LD F, Vx (R152). -/
  | ldF (x : Reg)
  /-- `Fx33` LD B, Vx (R153). -/
  | ldB (x : Reg)
  /-- `Fx55` LD [I], Vx (R154). -/
  | storeRegs (x : Reg)
  /-- `Fx65` LD Vx, [I] (R155). -/
  | loadRegs (x : Reg)
deriving DecidableEq, Repr

end Sys2Proof
end

