-- ==== Sys2Proof/WellFormed.lean ====
section
/-!
DEFINITION. Which terms are well-formed. "Every value of `x`, `y`, `n`, `kk` and `nnn` in an operand
position is legal at decode" (spec/30_encoding.md R75), and the field types of `Instr` hold exactly
those values, so every `Instr` term passes its check. The check that can fail is the one on the host's
program image (spec/60_exceptions.md R215).
-/

namespace Sys2Proof

/-- A register number names one of the 16 registers (R20). -/
def regOk (x : Reg) : Bool := x.toNat < 16

/-- An immediate or mask is in 0..0xFF (R72). -/
def immOk (kk : Byte) : Bool := kk.toNat < 0x100

/-- An address operand is in 0..0xFFF (R72). -/
def addrOk (nnn : Addr) : Bool := nnn.toNat < 0x1000

/-- A sprite height is in 0..15 (R72). -/
def heightOk (n : Nibble) : Bool := n.toNat < 16

/-- The operands of an instruction are in the ranges of R72. -/
def Instr.wellFormed : Instr → Bool
  | .cls => true
  | .ret => true
  | .jp nnn => addrOk nnn
  | .call nnn => addrOk nnn
  | .seImm x kk => regOk x && immOk kk
  | .sneImm x kk => regOk x && immOk kk
  | .seReg x y => regOk x && regOk y
  | .ldImm x kk => regOk x && immOk kk
  | .addImm x kk => regOk x && immOk kk
  | .ldReg x y => regOk x && regOk y
  | .orReg x y => regOk x && regOk y
  | .andReg x y => regOk x && regOk y
  | .xorReg x y => regOk x && regOk y
  | .addReg x y => regOk x && regOk y
  | .sub x y => regOk x && regOk y
  | .shr x y => regOk x && regOk y
  | .subn x y => regOk x && regOk y
  | .shl x y => regOk x && regOk y
  | .sneReg x y => regOk x && regOk y
  | .ldI nnn => addrOk nnn
  | .jpV0 nnn => addrOk nnn
  | .rnd x kk => regOk x && immOk kk
  | .drw x y n => regOk x && regOk y && heightOk n
  | .skp x => regOk x
  | .sknp x => regOk x
  | .ldVxDt x => regOk x
  | .ldVxK x => regOk x
  | .ldDtVx x => regOk x
  | .ldStVx x => regOk x
  | .addI x => regOk x
  | .ldF x => regOk x
  | .ldB x => regOk x
  | .storeRegs x => regOk x
  | .loadRegs x => regOk x

/-- A program image fits: at most 3584 = 0x1000 − 0x200 bytes (R215, `PROG_MAX` of R7). -/
def imageFits (image : List Byte) : Bool := image.length ≤ 3584

end Sys2Proof
end

