-- ==== Sys2Proof/Config.lean ====
section
/-!
DEFINITION. What an implementation fixes (spec/00_scope.md R8) and the one free value, the random
byte of Cxkk (spec/41_alu.md R132).
-/

namespace Sys2Proof

/-- The parameters of R8 that the rules of the instruction set and of reset read. "The model takes
each as an argument": `exec` has the host's fixed form, so the argument stands in `State.cfg`, which
no step writes (DESIGN CHOICE, log 2; safe: a statement holds for every setting).
`STEPS_PER_TICK` is a `StepsPerTick`, an argument of `State.batch`, instead. -/
structure Config where
  /-- `QUIRK_SHIFT_USES_VY`: 8xy6 and 8xyE shift `Vy` into `Vx` (R129, R131). -/
  quirkShiftUsesVy : Bool
  /-- `QUIRK_LOGIC_CLEARS_VF`: 8xy1, 8xy2 and 8xy3 write `VF <- 0` (R124-R126). -/
  quirkLogicClearsVf : Bool
  /-- `QUIRK_LOADSTORE_ADVANCES_I`: Fx55 and Fx65 leave `I <- I + x + 1` (R154, R155). -/
  quirkLoadStoreAdvancesI : Bool
  /-- `FONT`: the bytes that reset places at 0x000..0x04F (R58, R231). -/
  font : Vector Byte 80
deriving DecidableEq, Repr

/-- The type of `STEPS_PER_TICK`, "natural ≥ 1" (R8, D21): a tick comes after at least one step. -/
abbrev StepsPerTick := { n : Nat // 1 ≤ n }

/-- The random byte of the `n`-th draw that no host supplied (R132: "any value 0..255, a free input
of this step"; D16). It has no body, so nothing can be proved of its value (DESIGN CHOICE, log 5; safe). -/
opaque Config.freeDraw (n : Nat) : Byte

end Sys2Proof
end

