-- ==== Sys2Proof/Machine/Params.lean ====
section
/-!
DEFINITION. The values of the parameters that every rule assumes (spec/00_scope.md R8): the quirk
defaults of R8 and the font table of spec/20_memory.md R58, which the spec takes from general
knowledge (PRESUMED, log 3; unsafe: the hardware's own font may hold other bytes).
-/

namespace Sys2Proof.Machine

/-- The glyphs 0 to 7 of R58, five bytes each, top row first. -/
def fontLow : List Byte :=
  [0xF0, 0x90, 0x90, 0x90, 0xF0] ++ [0x20, 0x60, 0x20, 0x20, 0x70] ++
  [0xF0, 0x10, 0xF0, 0x80, 0xF0] ++ [0xF0, 0x10, 0xF0, 0x10, 0xF0] ++
  [0x90, 0x90, 0xF0, 0x10, 0x10] ++ [0xF0, 0x80, 0xF0, 0x10, 0xF0] ++
  [0xF0, 0x80, 0xF0, 0x90, 0xF0] ++ [0xF0, 0x10, 0x20, 0x40, 0x40]

/-- The glyphs 8 to F of R58. -/
def fontHigh : List Byte :=
  [0xF0, 0x90, 0xF0, 0x90, 0xF0] ++ [0xF0, 0x90, 0xF0, 0x10, 0xF0] ++
  [0xF0, 0x90, 0xF0, 0x90, 0x90] ++ [0xE0, 0x90, 0xE0, 0x90, 0xE0] ++
  [0xF0, 0x80, 0x80, 0x80, 0xF0] ++ [0xE0, 0x90, 0x90, 0x90, 0xE0] ++
  [0xF0, 0x80, 0xF0, 0x80, 0xF0] ++ [0xF0, 0x80, 0xF0, 0x80, 0x80]

/-- The 80 bytes of the default `FONT` (R58): glyph `d` at offset `5 * d`. -/
def defaultFontBytes : List Byte := fontLow ++ fontHigh

/-- The default `FONT` (R8, R58). -/
def defaultFont : Vector Byte 80 := ⟨defaultFontBytes.toArray, rfl⟩

/-- R8's defaults: "the configuration that every other rule and every test vector assumes". -/
def defaultConfig : Config :=
  { quirkShiftUsesVy := false
    quirkLogicClearsVf := true
    quirkLoadStoreAdvancesI := false
    font := defaultFont }

end Sys2Proof.Machine
end

