-- ==== Sys2Proof/Machine/State.lean ====
section
/-!
DEFINITION. The state of the machine (spec/10_state.md R20-R37), its value after reset
(spec/70_reset_and_hazards.md R230-R234), and the reasons an outcome can stop.
-/

namespace Sys2Proof.Machine

/-- Memory: the (address, byte) pairs that differ from what an unlisted address reads as
(`Memory.background`), addresses strictly rising (R50; log 10). -/
abbrev Memory := List Host.Cell

/-- The framebuffer: 32 rows, top to bottom, of 64 one-bit pixels, left to right (R30). -/
abbrev Framebuffer := Vector (Vector Bool 64) 32

/-- The codes of spec/60_exceptions.md R201. -/
inductive FaultCode where
  /-- 1: `pc > 0xFFE` at the start of a step (R76). -/
  | fetchOutOfRange
  /-- 2: the fetched word matches no row of R73 (R74). -/
  | illegalOpcode
  /-- 3: a jump target `>= 0x1000` (R108). -/
  | targetOutOfRange
  /-- 4: return with `SP = 0` (R101). -/
  | stackUnderflow
  /-- 5: call with `SP = 16` (R103). -/
  | stackOverflow
  /-- 6: key-skip with `Vx > 15` (R180). -/
  | keyOutOfRange
  /-- 16: program image missing or unreadable (R215). -/
  | loadImageMissing
  /-- 17: program image longer than 3584 bytes (R215). -/
  | loadImageTooLarge
deriving DecidableEq, Repr

/-- `STATUS` (R33): `Running`, or `Faulted(code, addr, word)`. `addr` is absent for a load fault and
`word` for a load or fetch fault (R201). -/
inductive Status where
  | running
  | faulted (code : FaultCode) (addr : Option Word) (word : Option Word)
deriving DecidableEq, Repr

/-- Everything the spec gives the machine (R37), and three fields of the model's own: `cfg`, `rnd`
and `draws` (logs 2 and 5). -/
structure State where
  /-- `V0`..`VF`, by index (R20). -/
  v : Vector Byte 16
  /-- `I` (R22). -/
  i : Word
  /-- `pc`: between steps the address of the next fetch, within one that of the instruction (R23). -/
  pc : Word
  /-- `SP`, 0..16: the number of stack entries in use (R24). -/
  sp : Fin 17
  /-- `STACK[0..15]` (R25). -/
  stack : Vector Word 16
  /-- `DT` (R26). -/
  dt : Byte
  /-- `ST` (R27). -/
  st : Byte
  /-- `MEM` (R50). -/
  mem : Memory
  /-- `FB` (R30). -/
  fb : Framebuffer
  /-- `KEYS`: the sample the host last set, `true` for pressed (R31; log 7). -/
  keys : Vector Bool 16
  /-- `WAIT_ARMED` (R32). -/
  waitArmed : Bool
  /-- `WAIT_KEY` (R32). -/
  waitKey : Nibble
  /-- `STATUS` (R33). -/
  status : Status
  /-- The parameters of R8; the model's own field, written by nothing (R35; log 2). -/
  cfg : Config
  /-- The draw the host passed to this step (R76, R210), or that it passed none; the model's own
  field (log 5). -/
  rnd : Option Byte
  /-- How many free draws have been taken; the model's own field (R132; log 5). -/
  draws : Nat
deriving DecidableEq, Repr

/-- The machine right after reset: R234 with an empty image (R215: "An image of 0 bytes is not a
fault"). Memory lists nothing, since an unlisted address reads as the reset contents (log 10). -/
def State.reset : State :=
  { v := Vector.replicate 16 0
    i := 0
    pc := 0x200
    sp := 0
    stack := Vector.replicate 16 0
    dt := 0
    st := 0
    mem := []
    fb := Vector.replicate 32 (Vector.replicate 64 false)
    keys := Vector.replicate 16 false
    waitArmed := false
    waitKey := 0
    status := .running
    cfg := defaultConfig
    rnd := none
    draws := 0 }

/-- Why an outcome is a fault of the model. The machine's own faults (R201) are none of these: R203
says what entering one writes, so a step that raises one answers a next state (log 1). -/
inductive Fault where
  /-- Raised by the host's observation of one byte (`HostOp.peek`) at an address `>= 0x1000`, which
  R51 leaves undefined. Safe: it stops. No step raises it (log 11). -/
  | noSuchAddress (a : Nat)
deriving DecidableEq, Repr

/-- Why an outcome is a refusal. -/
inductive Refusal where
  /-- Raised by an arm of `exec` whose instruction has no meaning yet; no arm does. Safe: it stops. -/
  | notModelled (mnemonic : String)
deriving DecidableEq, Repr

end Sys2Proof.Machine
end

