-- ==== Sys2Proof/Machine/Ops.lean ====
section
/-!
DEFINITION. The named operations over memory, `pc`, stack, latch and status, fault entry among them
(spec/20_memory.md, spec/10_state.md, spec/60_exceptions.md R203). There is no return from a fault
(R204), so no operation beside fault entry undoes it; `State.load` in Machine/HostOps.lean is reset.
-/

namespace Sys2Proof.Machine

/-! ### Memory -/

/-- What an address that memory does not list reads as: the reset contents of R58, the default font
at 0x000..0x04F and 0 elsewhere. -/
def Memory.background (a : Nat) : Byte := defaultFontBytes.getD a 0

/-- `MemRead(a, 1)` (R51). -/
def Memory.read : Memory → Nat → Byte
  | [], a => Memory.background a
  | (k, b) :: m, a => if k = a then b else Memory.read m a

/-- The entry for an address taken out. -/
def Memory.erase (m : Memory) (a : Nat) : Memory := m.filter fun c => c.1 != a

/-- An entry put before the first one at a higher address. -/
def Memory.insert : Memory → Nat → Byte → Memory
  | [], a, b => [(a, b)]
  | (k, c) :: m, a, b => if a < k then (a, b) :: (k, c) :: m else (k, c) :: Memory.insert m a b

/-- `MemWrite(a, 1, b)` (R51): only the byte named changes (R57). A byte equal to the background is
not listed, so that equal memories are equal lists. -/
def Memory.write (m : Memory) (a : Nat) (b : Byte) : Memory :=
  if b = Memory.background a then m.erase a else (m.erase a).insert a b

/-- Every address of a list is above a bound, each above the one before. -/
def Memory.risingFrom : Nat → Memory → Bool
  | _, [] => true
  | lo, (k, _) :: m => decide (lo ≤ k) && Memory.risingFrom (k + 1) m

/-- The canonical form: addresses strictly rising and below 0x1000 (R50), and no entry equal to what
an unlisted address reads as. -/
def Memory.wf (m : Memory) : Bool :=
  Memory.risingFrom 0 m && m.all fun c => decide (c.1 < 0x1000) && (c.2 != Memory.background c.1)

/-- Bytes written verbatim at ascending addresses (R231, R232). -/
def Memory.load : Memory → Nat → List Byte → Memory
  | m, _, [] => m
  | m, a, b :: bs => Memory.load (m.write a b) (a + 1) bs

/-- The byte of `MEM` at an address (R51). -/
def State.readMem (s : State) (a : Nat) : Byte := s.mem.read a

/-- `MEM` replaced. -/
def State.setMem (s : State) (m : Memory) : State := { s with mem := m }

/-- `EA(k) = (I + k) mod 0x1000` (R52). -/
def State.ea (s : State) (k : Nat) : Nat := (s.i.toNat + k) % 0x1000

/-- The word at `pc`, big-endian: `MEM[pc] ‖ MEM[pc + 1]` (R53). Read only where `pc <= 0xFFE` (R76). -/
def State.fetchWord (s : State) : Word :=
  wordOfBytes (s.readMem s.pc.toNat) (s.readMem (s.pc.toNat + 1))

/-! ### The program counter -/

/-- `pc <- t`. -/
def State.setPc (s : State) (t : Word) : State := { s with pc := t }

/-- The default advance: the next fetch is at `pc + 2` (R77). -/
def State.advance (s : State) : State := s.setPc (s.pc + 2#16)

/-- A skip: the next fetch is at `pc + 4` when the condition holds, else at `pc + 2` (R77, R100). -/
def State.skipIf (s : State) (c : Bool) : State := if c then s.setPc (s.pc + 4#16) else s.advance

/-! ### Registers of their own -/

/-- `I <- w` (R22). -/
def State.setI (s : State) (w : Word) : State := { s with i := w }

/-- `DT <- b` (R26). -/
def State.setDt (s : State) (b : Byte) : State := { s with dt := b }

/-- `ST <- b` (R27). -/
def State.setSt (s : State) (b : Byte) : State := { s with st := b }

/-- `SOUND_GATE = (ST != 0)` (R28). -/
def State.soundGate (s : State) : Bool := s.st != 0

/-- `FB` replaced. -/
def State.setFb (s : State) (fb : Framebuffer) : State := { s with fb := fb }

/-- `WAIT_ARMED` and `WAIT_KEY` written (R32). -/
def State.setLatch (s : State) (armed : Bool) (key : Nibble) : State :=
  { s with waitArmed := armed, waitKey := key }

/-- `SP` and `STACK` written (R24, R25). -/
def State.setStack (s : State) (sp : Fin 17) (stack : Vector Word 16) : State :=
  { s with sp := sp, stack := stack }

/-- `STATUS` written (R33). -/
def State.setStatus (s : State) (st : Status) : State := { s with status := st }

/-- `KEYS` replaced, which only the host does (R31, R210). -/
def State.setKeys (s : State) (keys : Vector Bool 16) : State := { s with keys := keys }

/-! ### Faults -/

/-- The numbers of R201. -/
def FaultCode.number : FaultCode → Nat
  | .fetchOutOfRange => 1
  | .illegalOpcode => 2
  | .targetOutOfRange => 3
  | .stackUnderflow => 4
  | .stackOverflow => 5
  | .keyOutOfRange => 6
  | .loadImageMissing => 16
  | .loadImageTooLarge => 17

/-- Fault entry, `raise Fault(code)` (R203): `STATUS <- Faulted(code, pc, word)` and nothing else
changes; `pc` keeps the faulting instruction's address. -/
def State.raise (s : State) (code : FaultCode) (word : Option Word) : State :=
  s.setStatus (.faulted code (some s.pc) word)

/-- A fault of an instruction: the word recorded is the instruction's own (R201; log 12). -/
def State.raiseAt (s : State) (code : FaultCode) (i : Instr) : State := s.raise code (some (encode i))

/-! ### Control transfer and the stack -/

/-- A jump to an absolute target, with the source's range check (R100, R102, R108). -/
def State.jumpTo (s : State) (t : Nat) (i : Instr) : State :=
  if 0x1000 ≤ t then s.raiseAt .targetOutOfRange i else s.setPc (BitVec.ofNat 16 t)

/-- A push (R25): `STACK[SP] <- w`, then `SP <- SP + 1`; a full stack is a fault (R24, R103). -/
def State.push (s : State) (w : Word) (i : Instr) : State :=
  if h : s.sp.val < 16 then
    s.setStack ⟨s.sp.val + 1, by omega⟩ (s.stack.set s.sp.val w h)
  else s.raiseAt .stackOverflow i

/-- The top entry `STACK[SP-1]`, where there is one (R25). -/
def State.top (s : State) : Option Word :=
  if h : 0 < s.sp.val then some (s.stack[s.sp.val - 1]'(by have := s.sp.isLt; omega)) else none

/-- `SP <- SP - 1`; the entry keeps its value (R25). -/
def State.drop (s : State) : State :=
  s.setStack ⟨s.sp.val - 1, by have := s.sp.isLt; omega⟩ s.stack

/-! ### The random draw -/

/-- The byte a Cxkk step draws (R132): the one the host passed, else the next free one (log 5). -/
def State.drawn (s : State) : Byte := s.rnd.getD (Config.freeDraw s.draws)

/-- The draw used up: the host's if it passed one, else the counter moves on (log 5). -/
def State.useDraw (s : State) : State :=
  { s with rnd := none, draws := if s.rnd.isSome then s.draws else s.draws + 1 }

end Sys2Proof.Machine
end

