-- ==== Sys2Proof/Machine/Operands.lean ====
section
/-!
DEFINITION. Operand forms: the register file, the key vector, the framebuffer and the bytes of a
block at `I` (spec/10_state.md R20, R30, R31; spec/20_memory.md R54, R56).
-/

namespace Sys2Proof.Machine

/-- `V[x]` read (R20). -/
def State.getV (s : State) (x : Reg) : Byte := s.v[x.toNat]'(x.isLt)

/-- `V[x] <- b` (R20). -/
def State.setV (s : State) (x : Reg) (b : Byte) : State := { s with v := s.v.set x.toNat b (x.isLt) }

/-- The source register of 8xy6 and 8xyE: `Vx`, or `Vy` under `QUIRK_SHIFT_USES_VY` (R129, R131). -/
def State.shiftSource (s : State) (x y : Reg) : Byte :=
  if s.cfg.quirkShiftUsesVy then s.getV y else s.getV x

/-- `KEY[k]`: whether key `k` is pressed in this step's sample (R31). -/
def State.key (s : State) (k : Nibble) : Bool := s.keys[k.toNat]'(k.isLt)

/-- The lowest-numbered pressed key, if any is pressed (R186, D19). -/
def State.leastPressed (s : State) : Option Nibble :=
  ((List.range 16).map (BitVec.ofNat 4)).find? s.key

/-- `FB[y mod 32][x mod 64]` (R30, R170). -/
def Framebuffer.pixel (fb : Framebuffer) (y x : Nat) : Bool :=
  (fb[y % 32]'(Nat.mod_lt _ (by decide)))[x % 64]'(Nat.mod_lt _ (by decide))

/-- `FB[y mod 32][x mod 64] <- b` (R30, R170). -/
def Framebuffer.setPixel (fb : Framebuffer) (y x : Nat) (b : Bool) : Framebuffer :=
  fb.set (y % 32)
    ((fb[y % 32]'(Nat.mod_lt _ (by decide))).set (x % 64) b (Nat.mod_lt _ (by decide)))
    (Nat.mod_lt _ (by decide))

/-- Every pixel 0 (R171). -/
def Framebuffer.blank : Framebuffer := Vector.replicate 32 (Vector.replicate 64 false)

/-- Memory after `V0`..`V(count-1)` are stored at `EA(0)`, `EA(1)`, ... (R154). -/
def State.storeBlock (s : State) : Nat → Memory
  | 0 => s.mem
  | k + 1 => (s.storeBlock k).write (s.ea k) (s.getV (BitVec.ofNat 4 k))

/-- The state after `V0`..`V(count-1)` are loaded from `EA(0)`, `EA(1)`, ... (R155). -/
def State.loadBlock (s : State) : Nat → State
  | 0 => s
  | k + 1 => (s.loadBlock k).setV (BitVec.ofNat 4 k) (s.readMem (s.ea k))

/-- `I <- (I + x + 1) mod 0x10000` under `QUIRK_LOADSTORE_ADVANCES_I`, else `I` unchanged (R154, R155). -/
def State.advanceI (s : State) (x : Reg) : State :=
  if s.cfg.quirkLoadStoreAdvancesI then s.setI (BitVec.ofNat 16 (s.i.toNat + x.toNat + 1)) else s

end Sys2Proof.Machine
end

