-- ==== Sys2Proof/Machine/Flags.lean ====
section
/-!
DEFINITION. `VF` as the flag output (spec/10_state.md R21) and every flag computation of
spec/41_alu.md R133. Operands are converted to natural numbers, so that carry and borrow are
comparisons of exact values.
-/

namespace Sys2Proof.Machine

/-- The number of `VF` (R21). -/
def vf : Reg := 0xF#4

/-- A flag as the byte written to `VF`: 1 or 0. -/
def flagByte (c : Bool) : Byte := if c then 1#8 else 0#8

/-- The flag of an instruction, written last (R21, R120). -/
def State.setFlag (s : State) (c : Bool) : State := s.setV vf (flagByte c)

/-- Carry out of bit 7: the exact sum is 256 or more (R127). -/
def carry (a b : Byte) : Bool := 256 ≤ a.toNat + b.toNat

/-- No borrow in `a - b`: `a >= b`, equality included (R128, R130). -/
def noBorrow (a b : Byte) : Bool := b.toNat ≤ a.toNat

/-- `(a + b) mod 256` (R127). -/
def sumByte (a b : Byte) : Byte := BitVec.ofNat 8 (a.toNat + b.toNat)

/-- `(a - b) mod 256` (R128): the exact difference, narrowed. -/
def diffByte (a b : Byte) : Byte := BitVec.ofInt 8 (a.toNat - b.toNat : Int)

/-- The bit a right shift drops (R129). -/
def lowBit (a : Byte) : Bool := a.getLsbD 0

/-- The bit a left shift drops (R131). -/
def highBit (a : Byte) : Bool := a.getLsbD 7

/-- `VF <- 0` after OR, AND and XOR, under `QUIRK_LOGIC_CLEARS_VF` (R124-R126). -/
def State.logicFlag (s : State) : State :=
  if s.cfg.quirkLogicClearsVf then s.setFlag false else s

end Sys2Proof.Machine
end

