-- ==== Sys2Proof/Machine/Alu.lean ====
section
/-!
DEFINITION. The meanings of spec/41_alu.md: register loads, ALU, random. Every operand is read before
any write and a flag is written last (R120); every instruction advances by `pc + 2`.
-/

namespace Sys2Proof.Machine

/-- LD Vx, kk, `6xkk` (R121). -/
def execLdImm (x : Reg) (kk : Byte) (s : State) : Host.Outcome State Fault Refusal :=
  .next (s.setV x kk).advance

/-- ADD Vx, kk, `7xkk` (R122): no flag. -/
def execAddImm (x : Reg) (kk : Byte) (s : State) : Host.Outcome State Fault Refusal :=
  .next (s.setV x (sumByte (s.getV x) kk)).advance

/-- LD Vx, Vy, `8xy0` (R123). -/
def execLdReg (x y : Reg) (s : State) : Host.Outcome State Fault Refusal :=
  .next (s.setV x (s.getV y)).advance

/-- OR Vx, Vy, `8xy1` (R124). -/
def execOrReg (x y : Reg) (s : State) : Host.Outcome State Fault Refusal :=
  .next (s.setV x (s.getV x ||| s.getV y)).logicFlag.advance

/-- AND Vx, Vy, `8xy2` (R125). -/
def execAndReg (x y : Reg) (s : State) : Host.Outcome State Fault Refusal :=
  .next (s.setV x (s.getV x &&& s.getV y)).logicFlag.advance

/-- XOR Vx, Vy, `8xy3` (R126). -/
def execXorReg (x y : Reg) (s : State) : Host.Outcome State Fault Refusal :=
  .next (s.setV x (s.getV x ^^^ s.getV y)).logicFlag.advance

/-- ADD Vx, Vy, `8xy4` (R127): `VF` is the carry. -/
def execAddReg (x y : Reg) (s : State) : Host.Outcome State Fault Refusal :=
  .next ((s.setV x (sumByte (s.getV x) (s.getV y))).setFlag (carry (s.getV x) (s.getV y))).advance

/-- SUB Vx, Vy, `8xy5` (R128): `VF` is NOT borrow. -/
def execSub (x y : Reg) (s : State) : Host.Outcome State Fault Refusal :=
  .next ((s.setV x (diffByte (s.getV x) (s.getV y))).setFlag (noBorrow (s.getV x) (s.getV y))).advance

/-- SHR Vx, Vy, `8xy6` (R129): `VF` is bit 0 of the source. -/
def execShr (x y : Reg) (s : State) : Host.Outcome State Fault Refusal :=
  .next ((s.setV x (s.shiftSource x y >>> 1)).setFlag (lowBit (s.shiftSource x y))).advance

/-- SUBN Vx, Vy, `8xy7` (R130): operands swapped. -/
def execSubn (x y : Reg) (s : State) : Host.Outcome State Fault Refusal :=
  .next ((s.setV x (diffByte (s.getV y) (s.getV x))).setFlag (noBorrow (s.getV y) (s.getV x))).advance

/-- SHL Vx, Vy, `8xyE` (R131): `VF` is bit 7 of the source. -/
def execShl (x y : Reg) (s : State) : Host.Outcome State Fault Refusal :=
  .next ((s.setV x (s.shiftSource x y <<< 1)).setFlag (highBit (s.shiftSource x y))).advance

/-- RND Vx, kk, `Cxkk` (R132): the draw is a free value (D16; log 5). -/
def execRnd (x : Reg) (kk : Byte) (s : State) : Host.Outcome State Fault Refusal :=
  .next (s.useDraw.setV x (s.drawn &&& kk)).advance

end Sys2Proof.Machine
end

