-- ==== Sys2Proof/Machine/Control.lean ====
section
/-!
DEFINITION. The meanings of spec/40_control_flow.md: return, jump, call, skip, jump with offset. Each
is `Execute(ins)` of spec/30_encoding.md R76 and ends with `pc` at the next fetch (R77).
-/

namespace Sys2Proof.Machine

/-- RET, `00EE` (R101): `pc <- popped + 2`, the instruction after the call (D5). -/
def execRet (s : State) : Host.Outcome State Fault Refusal :=
  match s.top with
  | none => .next (s.raiseAt .stackUnderflow .ret)
  | some t => .next (s.drop.setPc (t + 2#16))

/-- JP nnn, `1nnn` (R102). The range check never fires (D33). -/
def execJp (nnn : Addr) (s : State) : Host.Outcome State Fault Refusal :=
  .next (s.jumpTo nnn.toNat (.jp nnn))

/-- CALL nnn, `2nnn` (R103): it pushes its own address (D5). The range check comes first and never
fires (R205, D33). -/
def execCall (nnn : Addr) (s : State) : Host.Outcome State Fault Refusal :=
  if 0x1000 ≤ nnn.toNat then .next (s.raiseAt .targetOutOfRange (.call nnn))
  else if s.sp.val = 16 then .next (s.raiseAt .stackOverflow (.call nnn))
  else .next ((s.push s.pc (.call nnn)).setPc (nnn.setWidth 16))

/-- SE Vx, kk, `3xkk` (R104). -/
def execSeImm (x : Reg) (kk : Byte) (s : State) : Host.Outcome State Fault Refusal :=
  .next (s.skipIf (s.getV x == kk))

/-- SNE Vx, kk, `4xkk` (R105). -/
def execSneImm (x : Reg) (kk : Byte) (s : State) : Host.Outcome State Fault Refusal :=
  .next (s.skipIf (s.getV x != kk))

/-- SE Vx, Vy, `5xy0` (R106). -/
def execSeReg (x y : Reg) (s : State) : Host.Outcome State Fault Refusal :=
  .next (s.skipIf (s.getV x == s.getV y))

/-- SNE Vx, Vy, `9xy0` (R107). -/
def execSneReg (x y : Reg) (s : State) : Host.Outcome State Fault Refusal :=
  .next (s.skipIf (s.getV x != s.getV y))

/-- JP V0, nnn, `Bnnn` (R108): the sum is formed without wrap, and a target of 0x1000 or more is a
fault (D36). -/
def execJpV0 (nnn : Addr) (s : State) : Host.Outcome State Fault Refusal :=
  .next (s.jumpTo (nnn.toNat + (s.getV 0#4).toNat) (.jpV0 nnn))

end Sys2Proof.Machine
end

