-- ==== Sys2Proof/Machine/Display.lean ====
section
/-!
DEFINITION. The meanings of spec/43_display.md: clear and draw. The draw is written as the loop of
R172, row by row and bit by bit.
-/

namespace Sys2Proof.Machine

/-- CLS, `00E0` (R171). -/
def execCls (s : State) : Host.Outcome State Fault Refusal :=
  .next (s.setFb Framebuffer.blank).advance

/-- One sprite bit at offset `(b, r)` from `(cx, cy)` (R172): a bit of 1 flips its pixel, and collides
where the pixel was 1 before the flip. The pair is the framebuffer and the collision so far. -/
def drawBit (cx cy r b : Nat) (bit : Bool) (acc : Framebuffer × Bool) : Framebuffer × Bool :=
  if bit then
    (acc.1.setPixel (cy + r) (cx + b) (!acc.1.pixel (cy + r) (cx + b)),
      acc.2 || acc.1.pixel (cy + r) (cx + b))
  else acc

/-- The first `count` bits of a sprite row, most significant bit leftmost (R170, R172). -/
def drawRow (cx cy r : Nat) (row : Byte) : Nat → Framebuffer × Bool → Framebuffer × Bool
  | 0, acc => acc
  | b + 1, acc => drawBit cx cy r b (row.getLsbD (7 - b)) (drawRow cx cy r row b acc)

/-- The framebuffer and the collision flag after the first `count` rows of the sprite at `I` are drawn
at `(cx, cy)` (R172). -/
def State.drawSprite (s : State) (cx cy : Nat) : Nat → Framebuffer × Bool
  | 0 => (s.fb, false)
  | r + 1 => drawRow cx cy r (s.readMem (s.ea r)) 8 (s.drawSprite cx cy r)

/-- DRW Vx, Vy, n, `Dxyn` (R172): `VF` is the collision, written last and on every draw. -/
def execDrw (x y : Reg) (n : Nibble) (s : State) : Host.Outcome State Fault Refusal :=
  .next ((s.setFb (s.drawSprite (s.getV x).toNat (s.getV y).toNat n.toNat).1).setFlag
    (s.drawSprite (s.getV x).toNat (s.getV y).toNat n.toNat).2).advance

end Sys2Proof.Machine
end

