-- ==== Sys2Proof/Machine/Index.lean ====
section
/-!
DEFINITION. The meanings of spec/42_index_memory.md: the index register and memory transfer. Every
address is `EA(k) = (I + k) mod 0x1000`, so none of them faults (spec/20_memory.md R52).
-/

namespace Sys2Proof.Machine

/-- LD I, nnn, `Annn` (R150). -/
def execLdI (nnn : Addr) (s : State) : Host.Outcome State Fault Refusal :=
  .next (s.setI (nnn.setWidth 16)).advance

/-- ADD I, Vx, `Fx1E` (R151): modulo 0x10000, no flag (D9). -/
def execAddI (x : Reg) (s : State) : Host.Outcome State Fault Refusal :=
  .next (s.setI (BitVec.ofNat 16 (s.i.toNat + (s.getV x).toNat))).advance

/-- LD F, Vx, `Fx29` (R152): the high nibble of `Vx` is ignored. -/
def execLdF (x : Reg) (s : State) : Host.Outcome State Fault Refusal :=
  .next (s.setI (BitVec.ofNat 16 (5 * (s.getV x &&& 0x0F).toNat))).advance

/-- Memory after the three decimal digits of a byte are written at `EA(0)`, `EA(1)`, `EA(2)` (R153). -/
def State.bcdBlock (s : State) (b : Byte) : Memory :=
  ((s.mem.write (s.ea 0) (BitVec.ofNat 8 (b.toNat / 100))).write
    (s.ea 1) (BitVec.ofNat 8 (b.toNat / 10 % 10))).write
    (s.ea 2) (BitVec.ofNat 8 (b.toNat % 10))

/-- LD B, Vx, `Fx33` (R153). -/
def execLdB (x : Reg) (s : State) : Host.Outcome State Fault Refusal :=
  .next (s.setMem (s.bcdBlock (s.getV x))).advance

/-- LD [I], Vx, `Fx55` (R154): `V0`..`Vx` inclusive. -/
def execStoreRegs (x : Reg) (s : State) : Host.Outcome State Fault Refusal :=
  .next ((s.setMem (s.storeBlock (x.toNat + 1))).advanceI x).advance

/-- LD Vx, [I], `Fx65` (R155): `V0`..`Vx` inclusive. -/
def execLoadRegs (x : Reg) (s : State) : Host.Outcome State Fault Refusal :=
  .next ((s.loadBlock (x.toNat + 1)).advanceI x).advance

end Sys2Proof.Machine
end

