-- ==== Sys2Proof/Machine/KeysTimers.lean ====
section
/-!
DEFINITION. The meanings of spec/44_keys_timers.md: key skips, timers, wait for key. A step sees one
constant key sample, `State.keys` (spec/10_state.md R31).
-/

namespace Sys2Proof.Machine

/-- SKP Vx, `Ex9E` (R181): an index above 15 is a fault (R180). -/
def execSkp (x : Reg) (s : State) : Host.Outcome State Fault Refusal :=
  if 15 < (s.getV x).toNat then .next (s.raiseAt .keyOutOfRange (.skp x))
  else .next (s.skipIf (s.key ((s.getV x).setWidth 4)))

/-- SKNP Vx, `ExA1` (R182): an index above 15 is a fault (R180). -/
def execSknp (x : Reg) (s : State) : Host.Outcome State Fault Refusal :=
  if 15 < (s.getV x).toNat then .next (s.raiseAt .keyOutOfRange (.sknp x))
  else .next (s.skipIf (!s.key ((s.getV x).setWidth 4)))

/-- LD Vx, DT, `Fx07` (R183). -/
def execLdVxDt (x : Reg) (s : State) : Host.Outcome State Fault Refusal :=
  .next (s.setV x s.dt).advance

/-- LD DT, Vx, `Fx15` (R184). -/
def execLdDtVx (x : Reg) (s : State) : Host.Outcome State Fault Refusal :=
  .next (s.setDt (s.getV x)).advance

/-- LD ST, Vx, `Fx18` (R185). -/
def execLdStVx (x : Reg) (s : State) : Host.Outcome State Fault Refusal :=
  .next (s.setSt (s.getV x)).advance

/-- LD Vx, K, `Fx0A` (R186): an unarmed step arms on the lowest pressed key and an armed one completes
when that key is released; until it completes, `pc` stays at this instruction. -/
def execLdVxK (x : Reg) (s : State) : Host.Outcome State Fault Refusal :=
  if s.waitArmed then
    if s.key s.waitKey then .next s
    else .next ((s.setV x (s.waitKey.setWidth 8)).setLatch false 0).advance
  else
    match s.leastPressed with
    | some k => .next (s.setLatch true k)
    | none => .next s

end Sys2Proof.Machine
end

