-- ==== Sys2Proof/Machine/Fetch.lean ====
section
/-!
DEFINITION. What a step does before `Execute(ins)` (spec/30_encoding.md R76): the fetch check, the
fetch and the decode, with the faults of spec/60_exceptions.md R205's first two places; and the
placing of one instruction where the next step fetches.
-/

namespace Sys2Proof.Machine

/-- A fetch needs `pc <= 0xFFE` (R53, R76, D6). -/
def State.canFetch (s : State) : Bool := s.pc.toNat ≤ 0xFFE

/-- The step's own faults and its decoded instruction, in the order of R205. -/
inductive Fetched where
  /-- The step ends here, in this state. -/
  | stop (s : State)
  /-- The instruction to execute. -/
  | run (i : Instr)
deriving DecidableEq, Repr

/-- R76 up to `Execute(ins)`: no effect unless `Running` (R204); `FETCH_OUT_OF_RANGE` with no word
recorded; `ILLEGAL_OPCODE` with the fetched word. -/
def State.fetch (s : State) : Fetched :=
  match s.status with
  | .faulted _ _ _ => .stop s
  | .running =>
    if s.canFetch then
      match decodeWord s.fetchWord with
      | some i => .run i
      | none => .stop (s.raise .illegalOpcode (some s.fetchWord))
    else .stop (s.raise .fetchOutOfRange none)

/-- Where `placeWord` stores its word: at `pc`, or at 0x200 where `pc` is no address a fetch may use
(log 19). -/
def State.placeAt (s : State) : Word := if s.canFetch then s.pc else 0x200

/-- A word stored where the next step fetches, that step made able to fetch it (log 19). -/
def State.placeWord (s : State) (w : Word) : State :=
  { s with
    pc := s.placeAt
    status := .running
    mem := (s.mem.write s.placeAt.toNat (hiByte w)).write (s.placeAt.toNat + 1) (loByte w) }

end Sys2Proof.Machine
end

