-- ==== Sys2Proof/Machine/Step.lean ====
section
/-! DEFINITION. One step of the machine (spec/30_encoding.md R76). -/

namespace Sys2Proof.Machine

/-- `Step` of R76, with the key sample and the draw in the state (logs 5 and 7). -/
def step (s : State) : Host.Outcome State Fault Refusal :=
  match s.fetch with
  | .stop t => .next t
  | .run i => exec i s

/-- The state with an instruction, its bits numbered as spec/opcode_table.json numbers them, stored
where `step` fetches next. It stands for the host's load of a program (logs 9, 19 and 20). -/
def State.withFetchWord (s : State) (nbits w : Nat) : State := s.placeWord (tableWord nbits w)

end Sys2Proof.Machine
end

