-- ==== Sys2Proof/Machine/HostOps.lean ====
section
/-!
DEFINITION. The host operations (spec/60_exceptions.md R208-R210, R215;
spec/70_reset_and_hazards.md R230-R234). Each is one atomic transition of the whole state.
-/

namespace Sys2Proof.Machine

/-- A timer counted down, never below zero (R208). -/
def countDown (b : Byte) : Byte := if b = 0 then 0 else b - 1

/-- `Tick()` (R208): both timers down by one if positive; nothing in a faulted state (R204). -/
def State.tick (s : State) : State :=
  match s.status with
  | .running => (s.setDt (countDown s.dt)).setSt (countDown s.st)
  | .faulted _ _ _ => s

/-- The state that reset reaches before it looks at the image: zero-initialised, the font written,
`pc` at 0x200 (R230, R231, R233). `KEYS` is not reset by the core (R234), and neither are the
parameters and the numbering of free draws, which are not the machine's state (R35; log 18). -/
def State.zeroed (s : State) : State :=
  { State.reset with
    mem := Memory.load [] 0 s.cfg.font.toList
    keys := s.keys
    cfg := s.cfg
    draws := s.draws }

/-- `Reset(image)` (R230-R233), with `none` for an image that is missing or unreadable: a load fault
writes no byte of the image (R215, R232). -/
def State.load (s : State) (image : Option (List Byte)) : State :=
  match image with
  | none => s.zeroed.setStatus (.faulted .loadImageMissing none none)
  | some bytes =>
    if imageFits bytes then s.zeroed.setMem (Memory.load s.zeroed.mem 0x200 bytes)
    else s.zeroed.setStatus (.faulted .loadImageTooLarge none none)

/-- The operations of R210. -/
inductive HostOp where
  /-- `Reset(image)`. -/
  | reset (image : Option (List Byte))
  /-- `SetKeys(v)`. -/
  | setKeys (keys : Vector Bool 16)
  /-- `Step(rnd)`, with the draw for a Cxkk step. -/
  | step (rnd : Byte)
  /-- `Tick()`. -/
  | tick
  /-- observe: the framebuffer, the sound gate, the status, any other field. -/
  | observe
  /-- observe one byte of `MEM`. -/
  | peek (a : Nat)
deriving DecidableEq, Repr

/-- `Step(rnd)` (R76, R210): the draw is used by a Cxkk step, ignored by others, and gone after the
step (log 5). -/
def State.stepWith (s : State) (rnd : Byte) : Host.Outcome State Fault Refusal :=
  match Sys2Proof.Machine.step { s with rnd := some rnd } with
  | .next t => .next { t with rnd := none }
  | .fault f => .fault f
  | .refused r => .refused r

/-- One host operation (R210). Observing changes nothing; an address outside `MEM` cannot be observed
(R51; log 11). -/
def hostApply (op : HostOp) (s : State) : Host.Outcome State Fault Refusal :=
  match op with
  | .reset image => .next (s.load image)
  | .setKeys keys => .next (s.setKeys keys)
  | .step rnd => s.stepWith rnd
  | .tick => .next s.tick
  | .observe => .next s
  | .peek a => if a < 0x1000 then .next s else .fault (.noSuchAddress a)

/-- What the host reads out between operations (R210): the outputs of the core. -/
structure Observation where
  fb : Framebuffer
  soundGate : Bool
  status : Status
deriving DecidableEq, Repr

/-- The outputs of a state (R210). -/
def State.observe (s : State) : Observation := ⟨s.fb, s.soundGate, s.status⟩

/-- `count` steps in a row. -/
def State.steps (s : State) : Nat → Host.Outcome State Fault Refusal
  | 0 => .next s
  | k + 1 =>
    match s.steps k with
    | .next t => Sys2Proof.Machine.step t
    | .fault f => .fault f
    | .refused r => .refused r

/-- One batch of the host's loop (R209): `STEPS_PER_TICK` steps and then a tick. The count is OPEN, so
it is an argument, of R8's type: a natural number of 1 or more (R8, D21; log 14). -/
def State.batch (s : State) (stepsPerTick : StepsPerTick) : Host.Outcome State Fault Refusal :=
  match s.steps stepsPerTick.val with
  | .next t => .next t.tick
  | .fault f => .fault f
  | .refused r => .refused r

end Sys2Proof.Machine
end

