-- ==== Sys2Proof/Safety.lean ====
section
/-!
DEFINITION. What counts as a legal and as a safe state (spec/10_state.md R34, R32;
spec/60_exceptions.md R216), when a step faults (R201, R205), what an instruction may write (the
"W by" column of spec/10_state.md R37) and the sprite of spec/43_display.md R170 pixel by pixel, in
the terms the statements use.
-/

namespace Sys2Proof.Machine

/-- The run has not ended in a fault (R33, R216). -/
abbrev State.Safe (s : State) : Prop := s.status = .running

/-- R34: `pc` is in 0..0x1002. -/
abbrev State.PcInRange (s : State) : Prop := s.pc.toNat ≤ 0x1002

/-- Every stack entry in use is the address of a 2nnn, so at most 0xFFE (R25, R101). -/
abbrev State.StackInRange (s : State) : Prop :=
  ∀ j : Fin 16, j.val < s.sp.val → (s.stack[j.val]'j.isLt).toNat ≤ 0xFFE

/-- R34: "if `WAIT_ARMED` is `false` then `WAIT_KEY = 0`". -/
abbrev State.LatchClear (s : State) : Prop := s.waitArmed = false → s.waitKey = 0

/-- The invariant between host operations: R34, the return addresses R101 relies on, and the
canonical form of memory. The ranges of R34 that are not here are the field types'. -/
abbrev State.Inv (s : State) : Prop :=
  s.PcInRange ∧ s.StackInRange ∧ s.LatchClear ∧ Memory.wf s.mem = true

/-- While the latch is armed, the next instruction is the Fx0A that armed it (R32, R237). -/
abbrev State.WaitAtKey (s : State) : Prop :=
  s.waitArmed = true → s.canFetch = true ∧ ∃ x, decodeWord s.fetchWord = some (.ldVxK x)

/-- R216: `STATUS = Running` and the word at `pc` is a jump to `pc`. -/
abbrev State.Idle (s : State) : Prop :=
  s.status = .running ∧ s.canFetch = true ∧ s.fetchWord = 0x1000#16 ||| s.pc

/-! ### When a step faults -/

/-- The operand check of an instruction (R201, codes 3 to 6; R108, R101, R103, R180). -/
def State.operandFault (s : State) : Instr → Option FaultCode
  | .ret => if s.sp.val = 0 then some .stackUnderflow else none
  | .call _ => if s.sp.val = 16 then some .stackOverflow else none
  | .jpV0 nnn =>
    if 0x1000 ≤ nnn.toNat + (s.getV 0#4).toNat then some .targetOutOfRange else none
  | .skp x => if 15 < (s.getV x).toNat then some .keyOutOfRange else none
  | .sknp x => if 15 < (s.getV x).toNat then some .keyOutOfRange else none
  | _ => none

/-- The fault that the next step of a running state raises, by R201's causes in R205's order. -/
def State.faultCause (s : State) : Option FaultCode :=
  if 0xFFE < s.pc.toNat then some .fetchOutOfRange
  else match decodeWord s.fetchWord with
    | none => some .illegalOpcode
    | some i => s.operandFault i

/-- The word that R201 records with a fault of this step: none for a fetch fault. -/
def State.faultWord (s : State) (c : FaultCode) : Option Word :=
  if c = .fetchOutOfRange then none else some s.fetchWord

end Sys2Proof.Machine

namespace Sys2Proof

open Sys2Proof.Machine

/-! ### What an instruction may write (R37) -/

/-- The registers an instruction may write: its destination, and `VF` for a flag (R21, R37). -/
def Instr.writesReg (i : Instr) (r : Reg) : Bool :=
  match i with
  | .ldImm x _ | .addImm x _ | .ldReg x _ | .rnd x _ | .ldVxDt x | .ldVxK x => r == x
  | .orReg x _ | .andReg x _ | .xorReg x _ | .addReg x _ | .sub x _ | .shr x _ | .subn x _
  | .shl x _ => r == x || r == vf
  | .drw _ _ _ => r == vf
  | .loadRegs x => r.toNat ≤ x.toNat
  | _ => false

/-- The addresses an instruction stores to, by the `EA` its meaning uses (R52, R56). -/
def Instr.storesTo (i : Instr) (s : State) (a : Nat) : Prop :=
  match i with
  | .ldB _ => ∃ k, k < 3 ∧ a = s.ea k
  | .storeRegs x => ∃ k, k ≤ x.toNat ∧ a = s.ea k
  | _ => False

/-- The instructions that may write `I` (R22). -/
def Instr.writesI : Instr → Bool
  | .ldI _ | .addI _ | .ldF _ | .storeRegs _ | .loadRegs _ => true
  | _ => false

/-- The instructions that may write `SP` (R24). -/
def Instr.writesSp : Instr → Bool
  | .ret | .call _ => true
  | _ => false

/-- The instructions that may write `FB` (R30). -/
def Instr.writesFb : Instr → Bool
  | .cls | .drw _ _ _ => true
  | _ => false

/-- The instruction that may write the wait latch (R32). -/
def Instr.isWait : Instr → Bool
  | .ldVxK _ => true
  | _ => false

/-- The instructions whose rule has no `pc <-`, so that the next fetch is at `pc + 2` (R77). -/
def Instr.isSequential : Instr → Bool
  | .ret | .jp _ | .call _ | .seImm _ _ | .sneImm _ _ | .seReg _ _ | .sneReg _ _ | .jpV0 _
  | .skp _ | .sknp _ | .ldVxK _ => false
  | _ => true

end Sys2Proof

namespace Sys2Proof.Machine

/-! ### The sprite, pixel by pixel -/

/-- The bit of an `n`-row sprite at `I`, drawn at `(cx, cy)`, that lies on the pixel in row `py` and
column `px` (R170): "Bit `7-b` of row `r` is the pixel at column offset `b` and row offset `r`". -/
def State.spriteBit (s : State) (cx cy n py px : Nat) : Bool :=
  let r := (py + 32 - cy % 32) % 32
  let b := (px + 64 - cx % 64) % 64
  decide (r < n) && decide (b < 8) && (s.readMem (s.ea r)).getLsbD (7 - b)

end Sys2Proof.Machine
end

