-- ==== Sys2Proof/Certificates/Slice0/Obligations.lean ====
section
/-!
DEFINITION. The statements for the provers, from the numbered rules of spec/. Each docstring names the
rules; OBLIGATIONS.json lists them with their quotes.
-/

open Sys2Proof Sys2Proof.Machine

/-! ### Encoding and decoding -/

/-- Words written out from R73's patterns decode to their instructions, one of each family and format
(R71, R73, 95_test_vectors.md). -/
def Obligations.SampleWordsDecode : Prop :=
  decodeWord 0x00E0 = some .cls ∧ decodeWord 0x00EE = some .ret ∧
  decodeWord 0x1234 = some (.jp 0x234) ∧ decodeWord 0x3342 = some (.seImm 3 0x42) ∧
  decodeWord 0x5120 = some (.seReg 1 2) ∧ decodeWord 0x8127 = some (.subn 1 2) ∧
  decodeWord 0xA000 = some (.ldI 0) ∧ decodeWord 0xC30F = some (.rnd 3 0x0F) ∧
  decodeWord 0xD125 = some (.drw 1 2 5) ∧ decodeWord 0xE5A1 = some (.sknp 5) ∧
  decodeWord 0xF265 = some (.loadRegs 2) ∧
  decodeWord 0x0123 = none ∧ decodeWord 0x5121 = none ∧ decodeWord 0x812F = none ∧
  decodeWord 0xE19F = none ∧ decodeWord 0xF130 = none

/-- Decode and encode agree: no operand bit of any instruction is dropped (R71-R73). -/
def Obligations.DecodeOfEncode : Prop :=
  ∀ i : Instr, decodeWord (encode i) = some i ∧
    ∀ rest, decodeBytes (encodeBytes i ++ rest) = .ok (i, rest)

/-- Each legal word is the word of exactly the instruction it decodes to (R73). -/
def Obligations.EncodeOfDecode : Prop :=
  ∀ (w : Word) (i : Instr), decodeWord w = some i → encode i = w

/-- The decoder is R73's table: it answers the instruction of the row that matches, and nothing where
no row matches (R73, R74). -/
def Obligations.DecodeIsTheTable : Prop :=
  ∀ w : Word, (decodeWord w).map mnemonicOf =
    (opcodeTable.find? fun r => rowMatches r w).map OpcodeRow.mnemonic

/-- No two patterns of R73 overlap: a word matches at most one row. -/
def Obligations.PatternsDoNotOverlap : Prop :=
  ∀ (w : Word) (r r' : OpcodeRow), r ∈ opcodeTable → r' ∈ opcodeTable →
    rowMatches r w = true → rowMatches r' w = true → r = r'

/-! ### The step -/

/-- R76's algorithm, clause by clause: frozen unless `Running`; the fetch check; the decode; else the
instruction at `pc`. That a faulted state stays as it is, and that pc = 0xFFF fails the fetch check,
are the spec's own decisions (D23, D6; log 15). -/
def Obligations.StepIsFetchDecodeExecute : Prop :=
  ∀ s : State,
    (s.status ≠ .running → step s = .next s) ∧
    (s.status = .running → 0xFFE < s.pc.toNat →
      step s = .next { s with status := .faulted .fetchOutOfRange (some s.pc) none }) ∧
    (s.status = .running → s.pc.toNat ≤ 0xFFE → decodeWord s.fetchWord = none →
      step s = .next { s with status := .faulted .illegalOpcode (some s.pc) (some s.fetchWord) }) ∧
    (∀ i, s.status = .running → s.pc.toNat ≤ 0xFFE → decodeWord s.fetchWord = some i →
      step s = exec i s)

/-- A step runs the decoded instruction: where the two bytes at `pc`, lower address first, decode to
`i`, the step is `exec i` and nothing else (R53, R76). -/
def Obligations.StepRunsTheBytesAtPc : Prop :=
  ∀ (s : State) (i : Instr), s.status = .running → s.pc.toNat ≤ 0xFFE →
    decodeBytes [s.readMem s.pc.toNat, s.readMem (s.pc.toNat + 1)] = .ok (i, []) →
    step s = exec i s

/-- Every step of every state answers a next state: no fault of the model and no refusal (R75, R76). -/
def Obligations.EveryStepAnswersNext : Prop :=
  ∀ s : State, ∃ t, step s = .next t

/-- A step of a running state that meets a fault's cause records the code, the address and the word of
R201 and changes nothing else (R201, R202, R203, R205). The order of the checks, and that pc = 0xFFF
is a fetch fault, are the spec's own decisions (D24, D6; log 15). -/
def Obligations.FaultingStepWritesStatusAlone : Prop :=
  ∀ (s : State) (c : FaultCode), s.status = .running → s.faultCause = some c →
    step s = .next { s with status := .faulted c (some s.pc) (s.faultWord c) }

/-- A step of a running state that meets no cause of R201 stays `Running`. -/
def Obligations.NoCauseNoFault : Prop :=
  ∀ s : State, s.status = .running → s.faultCause = none →
    ∃ t, step s = .next t ∧ t.status = .running

/-- No step and no tick leaves the faulted state or changes anything in it, the sound gate among it; a
reset with an image that fits does leave it (R204). That step and tick change nothing is the spec's
own decision (D23, D35; log 15). -/
def Obligations.FaultedStateIsFrozen : Prop :=
  ∀ s : State, s.status ≠ .running →
    step s = .next s ∧ s.tick = s ∧ (∀ n, s.steps n = .next s) ∧ (∀ n, s.batch n = .next s) ∧
    (∀ image : List Byte, image.length ≤ 3584 → (s.load (some image)).status = .running)

/-- At an idle state a step changes nothing (R216). -/
def Obligations.IdleStepChangesNothing : Prop :=
  ∀ s : State, s.Idle → step s = .next s

/-! ### Invariants -/

/-- The state after reset meets both invariants. -/
def Obligations.ResetMeetsTheInvariants : Prop :=
  State.reset.Inv ∧ State.reset.WaitAtKey

/-- Every step keeps R34, the return-address bound of R101 and the canonical form of memory. -/
def Obligations.StepKeepsInv : Prop :=
  ∀ s t : State, s.Inv → step s = .next t → t.Inv

/-- So does every host operation, whatever image, key vector and draw the host passes (R210). -/
def Obligations.HostOperationKeepsInv : Prop :=
  ∀ (op : HostOp) (s t : State), s.Inv → hostApply op s = .next t → t.Inv

/-- While the latch is armed the next instruction is an Fx0A: no other instruction runs before the
wait completes (R32, R237). -/
def Obligations.HostOperationKeepsWaitAtKey : Prop :=
  ∀ (op : HostOp) (s t : State), s.WaitAtKey → hostApply op s = .next t → t.WaitAtKey

/-! ### Frames: what each instruction leaves unchanged (the "W by" column of R37) -/

/-- Every register but an instruction's destination, and `VF` for one that writes a flag, is unchanged
(R20, R21, R37). -/
def Obligations.RegisterFrame : Prop :=
  ∀ (i : Instr) (s t : State), exec i s = .next t →
    ∀ r : Reg, i.writesReg r = false → t.getV r = s.getV r

/-- Every byte of memory outside the addresses an instruction stores to reads as before; only Fx33 and
Fx55 store (R56, R57). -/
def Obligations.MemoryFrame : Prop :=
  ∀ (i : Instr) (s t : State), exec i s = .next t →
    ∀ a : Nat, ¬ i.storesTo s a → t.readMem a = s.readMem a

/-- `I` is unchanged but by Annn, Fx1E and Fx29, and by Fx55 and Fx65 under the quirk (R22). -/
def Obligations.IndexFrame : Prop :=
  ∀ (i : Instr) (s t : State), exec i s = .next t →
    (i.writesI = false ∨
      ((∃ x, i = .storeRegs x ∨ i = .loadRegs x) ∧ s.cfg.quirkLoadStoreAdvancesI = false)) →
    t.i = s.i

/-- `SP` is changed by 2nnn and 00EE alone, and a stack entry by 2nnn alone, at `STACK[SP]` (R24, R25). -/
def Obligations.StackFrame : Prop :=
  ∀ (i : Instr) (s t : State), exec i s = .next t →
    (i.writesSp = false → t.sp = s.sp) ∧
    ((∀ nnn, i ≠ .call nnn) → t.stack = s.stack) ∧
    (∀ j : Fin 16, j.val ≠ s.sp.val → t.stack[j.val] = s.stack[j.val])

/-- `DT` is written by Fx15 alone and `ST` by Fx18 alone: no step counts a timer down (R26, R27, R208). -/
def Obligations.TimerFrame : Prop :=
  ∀ (i : Instr) (s t : State), exec i s = .next t →
    ((∀ x, i ≠ .ldDtVx x) → t.dt = s.dt) ∧ ((∀ x, i ≠ .ldStVx x) → t.st = s.st)

/-- The framebuffer is written by 00E0 and Dxyn alone (R30). -/
def Obligations.FramebufferFrame : Prop :=
  ∀ (i : Instr) (s t : State), exec i s = .next t → i.writesFb = false → t.fb = s.fb

/-- The wait latch is written by Fx0A alone (R32). -/
def Obligations.LatchFrame : Prop :=
  ∀ (i : Instr) (s t : State), exec i s = .next t → i.isWait = false →
    t.waitArmed = s.waitArmed ∧ t.waitKey = s.waitKey

/-- `STATUS` is written by no instruction but on its operand fault, and then nothing else is written
and `pc` stays (R33, R202, R203). -/
def Obligations.StatusFrame : Prop :=
  ∀ (i : Instr) (s t : State), exec i s = .next t →
    (s.operandFault i = none → t.status = s.status) ∧
    (∀ c, s.operandFault i = some c →
      t = { s with status := .faulted c (some s.pc) (some (encode i)) })

/-- No instruction writes the key vector or a parameter, and only Cxkk takes a draw (R31, R35, R132). -/
def Obligations.InputFrame : Prop :=
  ∀ (i : Instr) (s t : State), exec i s = .next t →
    t.keys = s.keys ∧ t.cfg = s.cfg ∧
    ((∀ x kk, i ≠ .rnd x kk) → t.rnd = s.rnd ∧ t.draws = s.draws)

/-- An instruction whose rule has no `pc <-` leaves the next fetch at `pc + 2` (R77). -/
def Obligations.SequentialAdvance : Prop :=
  ∀ (i : Instr) (s : State), i.isSequential = true →
    ∃ t, exec i s = .next t ∧ t.pc = s.pc + 2#16

/-! ### Control flow (spec/40_control_flow.md) -/

/-- RET (R101): with an entry on the stack it resumes after the call that pushed it; with none it is a
fault. That the stack holds the call's own address and RET adds 2 is the spec's own decision (D5; log
15). -/
def Obligations.ReturnPopsTheStack : Prop :=
  decodeWord 0x00EE = some .ret ∧
  (∀ (s : State) (j : Fin 16), s.sp.val = j.val + 1 →
    exec .ret s = .next { s with sp := j.castSucc, pc := s.stack[j.val] + 2#16 }) ∧
  (∀ s : State, s.sp.val = 0 →
    exec .ret s = .next { s with status := .faulted .stackUnderflow (some s.pc) (some 0x00EE) })

/-- JP nnn (R102): `pc` is the zero-extended target, in every state. -/
def Obligations.JumpSetsPc : Prop :=
  ∀ (s : State) (nnn : Addr), decodeWord (0x1#4 ++ nnn) = some (.jp nnn) ∧
    exec (.jp nnn) s = .next { s with pc := nnn.setWidth 16 }

/-- CALL nnn (R103): it pushes its own address; on a full stack it is a fault. That the call pushes
its own address is the spec's own decision (D5; log 15). -/
def Obligations.CallPushesItsAddress : Prop :=
  ∀ (s : State) (nnn : Addr), decodeWord (0x2#4 ++ nnn) = some (.call nnn) ∧
    (∀ j : Fin 16, s.sp.val = j.val →
      exec (.call nnn) s = .next { s with
        sp := j.succ, stack := s.stack.set j.val s.pc, pc := nnn.setWidth 16 }) ∧
    (s.sp.val = 16 →
      exec (.call nnn) s =
        .next { s with status := .faulted .stackOverflow (some s.pc) (some (0x2#4 ++ nnn)) })

/-- A call and the return that matches it: the next fetch is the instruction after the call, and the
stack pointer is back, whatever else happened in between (R100, R101, R103). -/
def Obligations.CallThenReturn : Prop :=
  ∀ (s t u : State) (nnn : Addr), s.sp.val < 16 → exec (.call nnn) s = .next t →
    u.sp = t.sp → u.stack = t.stack →
    ∃ w, exec .ret u = .next w ∧ w.pc = s.pc + 2#16 ∧ w.sp = s.sp

/-- The four skips (R104-R107): `pc + 4` when the condition holds, else `pc + 2`, and nothing else. -/
def Obligations.SkipsCompareForEquality : Prop :=
  ∀ (s : State) (x y : Reg) (kk : Byte),
    (decodeWord (0x3#4 ++ x ++ kk) = some (.seImm x kk) ∧
      exec (.seImm x kk) s =
        .next { s with pc := if s.getV x = kk then s.pc + 4#16 else s.pc + 2#16 }) ∧
    (decodeWord (0x4#4 ++ x ++ kk) = some (.sneImm x kk) ∧
      exec (.sneImm x kk) s =
        .next { s with pc := if s.getV x ≠ kk then s.pc + 4#16 else s.pc + 2#16 }) ∧
    (decodeWord (0x5#4 ++ x ++ y ++ 0x0#4) = some (.seReg x y) ∧
      exec (.seReg x y) s =
        .next { s with pc := if s.getV x = s.getV y then s.pc + 4#16 else s.pc + 2#16 }) ∧
    (decodeWord (0x9#4 ++ x ++ y ++ 0x0#4) = some (.sneReg x y) ∧
      exec (.sneReg x y) s =
        .next { s with pc := if s.getV x ≠ s.getV y then s.pc + 4#16 else s.pc + 2#16 })

/-- JP V0, nnn (R108): the sum without wrap is the target; a sum of 0x1000 or more is a fault. That
the sum does not wrap is the spec's own decision (D36; log 15). -/
def Obligations.JumpWithOffset : Prop :=
  ∀ (s : State) (nnn : Addr), decodeWord (0xB#4 ++ nnn) = some (.jpV0 nnn) ∧
    (nnn.toNat + (s.getV 0#4).toNat < 0x1000 →
      exec (.jpV0 nnn) s = .next { s with pc := nnn.setWidth 16 + (s.getV 0#4).setWidth 16 }) ∧
    (0x1000 ≤ nnn.toNat + (s.getV 0#4).toNat →
      exec (.jpV0 nnn) s =
        .next { s with status := .faulted .targetOutOfRange (some s.pc) (some (0xB#4 ++ nnn)) })

/-! ### Register loads, ALU and random (spec/41_alu.md) -/

/-- LD Vx, kk; ADD Vx, kk without a flag; LD Vx, Vy (R121-R123). -/
def Obligations.LoadsAndAddImmediate : Prop :=
  ∀ (s : State) (x y : Reg) (kk : Byte),
    (decodeWord (0x6#4 ++ x ++ kk) = some (.ldImm x kk) ∧
      exec (.ldImm x kk) s = .next ((s.setV x kk).setPc (s.pc + 2#16))) ∧
    (decodeWord (0x7#4 ++ x ++ kk) = some (.addImm x kk) ∧
      exec (.addImm x kk) s = .next ((s.setV x (s.getV x + kk)).setPc (s.pc + 2#16))) ∧
    (decodeWord (0x8#4 ++ x ++ y ++ 0x0#4) = some (.ldReg x y) ∧
      exec (.ldReg x y) s = .next ((s.setV x (s.getV y)).setPc (s.pc + 2#16)))

/-- OR, AND, XOR (R124-R126): the result in `Vx`, then `VF <- 0` under `QUIRK_LOGIC_CLEARS_VF`. -/
def Obligations.LogicOperations : Prop :=
  ∀ (s : State) (x y : Reg),
    let finish := fun r : Byte =>
      ((if s.cfg.quirkLogicClearsVf then (s.setV x r).setV 0xF#4 0#8 else s.setV x r).setPc (s.pc + 2#16))
    (decodeWord (0x8#4 ++ x ++ y ++ 0x1#4) = some (.orReg x y) ∧
      exec (.orReg x y) s = .next (finish (s.getV x ||| s.getV y))) ∧
    (decodeWord (0x8#4 ++ x ++ y ++ 0x2#4) = some (.andReg x y) ∧
      exec (.andReg x y) s = .next (finish (s.getV x &&& s.getV y))) ∧
    (decodeWord (0x8#4 ++ x ++ y ++ 0x3#4) = some (.xorReg x y) ∧
      exec (.xorReg x y) s = .next (finish (s.getV x ^^^ s.getV y)))

/-- ADD Vx, Vy (R127): `(a + b) mod 256`, then `VF` is 1 iff `a + b >= 256`. -/
def Obligations.AddSetsCarry : Prop :=
  ∀ (s : State) (x y : Reg), decodeWord (0x8#4 ++ x ++ y ++ 0x4#4) = some (.addReg x y) ∧
    exec (.addReg x y) s = .next (((s.setV x (s.getV x + s.getV y)).setV 0xF#4
      (if 256 ≤ (s.getV x).toNat + (s.getV y).toNat then 1#8 else 0#8)).setPc (s.pc + 2#16))

/-- SUB and SUBN (R128, R130): the difference modulo 256, then `VF` is NOT borrow. -/
def Obligations.SubtractSetsNotBorrow : Prop :=
  ∀ (s : State) (x y : Reg),
    (decodeWord (0x8#4 ++ x ++ y ++ 0x5#4) = some (.sub x y) ∧
      exec (.sub x y) s = .next (((s.setV x (s.getV x - s.getV y)).setV 0xF#4
        (if s.getV y ≤ s.getV x then 1#8 else 0#8)).setPc (s.pc + 2#16))) ∧
    (decodeWord (0x8#4 ++ x ++ y ++ 0x7#4) = some (.subn x y) ∧
      exec (.subn x y) s = .next (((s.setV x (s.getV y - s.getV x)).setV 0xF#4
        (if s.getV x ≤ s.getV y then 1#8 else 0#8)).setPc (s.pc + 2#16)))

/-- SHR and SHL (R129, R131): the source is `Vx`, or `Vy` under `QUIRK_SHIFT_USES_VY`; `VF` is the bit
shifted out. -/
def Obligations.ShiftsSetTheBitShiftedOut : Prop :=
  ∀ (s : State) (x y : Reg),
    let src := if s.cfg.quirkShiftUsesVy then s.getV y else s.getV x
    (decodeWord (0x8#4 ++ x ++ y ++ 0x6#4) = some (.shr x y) ∧
      exec (.shr x y) s = .next (((s.setV x (src >>> 1)).setV 0xF#4 (src &&& 1)).setPc (s.pc + 2#16))) ∧
    (decodeWord (0x8#4 ++ x ++ y ++ 0xE#4) = some (.shl x y) ∧
      exec (.shl x y) s =
        .next (((s.setV x (src <<< 1)).setV 0xF#4 ((src >>> 7) &&& 1)).setPc (s.pc + 2#16)))

/-- When the destination is `VF`, the flag is what `VF` holds at the end, and every operand is the
value before the instruction (R21, R120). That operands are read first and the flag is written last is
the spec's own decision, marked so at R21 and R120 (D12; log 15, unsafe). The results for every x, OR,
AND and XOR among them, are LogicOperations, AddSetsCarry, SubtractSetsNotBorrow and
ShiftsSetTheBitShiftedOut. -/
def Obligations.FlagIsWrittenLast : Prop :=
  ∀ (s : State) (y : Reg),
    (∃ t, exec (.addReg 0xF#4 y) s = .next t ∧
      (t.getV 0xF#4).toNat = ((s.getV 0xF#4).toNat + (s.getV y).toNat) / 256) ∧
    (∃ t, exec (.sub 0xF#4 y) s = .next t ∧
      ((t.getV 0xF#4).toNat = 1 ↔ (s.getV y).toNat ≤ (s.getV 0xF#4).toNat)) ∧
    (∃ t, exec (.subn 0xF#4 y) s = .next t ∧
      ((t.getV 0xF#4).toNat = 1 ↔ (s.getV 0xF#4).toNat ≤ (s.getV y).toNat)) ∧
    (∃ t, exec (.shr 0xF#4 y) s = .next t ∧ (t.getV 0xF#4).toNat = (s.shiftSource 0xF#4 y).toNat % 2) ∧
    (∃ t, exec (.shl 0xF#4 y) s = .next t ∧ (t.getV 0xF#4).toNat = (s.shiftSource 0xF#4 y).toNat / 128)

/-- RND Vx, kk (R132): the draw masked, for the draw the host passed and for a free one; the result is
in `{ v : v & ~kk = 0 }` whatever the draw. The free value's form is the model's own (log 5). -/
def Obligations.RandomIsMasked : Prop :=
  ∀ (s : State) (x : Reg) (kk : Byte),
    decodeWord (0xC#4 ++ x ++ kk) = some (.rnd x kk) ∧
    (∀ r, s.rnd = some r →
      exec (.rnd x kk) s = .next (({ s with rnd := none }.setV x (r &&& kk)).setPc (s.pc + 2#16))) ∧
    (s.rnd = none →
      exec (.rnd x kk) s = .next (({ s with draws := s.draws + 1 }.setV x
        (Config.freeDraw s.draws &&& kk)).setPc (s.pc + 2#16))) ∧
    (∀ t, exec (.rnd x kk) s = .next t → t.getV x &&& ~~~kk = 0)

/-! ### Index register and memory transfer (spec/42_index_memory.md) -/

/-- Annn, Fx1E, Fx29 (R150-R152). That the sum of Fx1E wraps at 0x10000 is the spec's own decision
(D9; log 15). -/
def Obligations.IndexRegisterLoads : Prop :=
  ∀ (s : State) (x : Reg) (nnn : Addr),
    (decodeWord (0xA#4 ++ nnn) = some (.ldI nnn) ∧
      exec (.ldI nnn) s = .next { s with i := nnn.setWidth 16, pc := s.pc + 2#16 }) ∧
    (decodeWord (0xF#4 ++ x ++ 0x1E#8) = some (.addI x) ∧
      exec (.addI x) s = .next { s with i := s.i + (s.getV x).setWidth 16, pc := s.pc + 2#16 }) ∧
    (decodeWord (0xF#4 ++ x ++ 0x29#8) = some (.ldF x) ∧
      ∃ w : Word, w.toNat = 5 * ((s.getV x).toNat % 16) ∧
        exec (.ldF x) s = .next { s with i := w, pc := s.pc + 2#16 })

/-- Fx33 (R153): the three decimal digits at `EA(0)`, `EA(1)`, `EA(2)`, every other byte as before. -/
def Obligations.BcdStoresThreeDigits : Prop :=
  ∀ (s : State) (x : Reg), decodeWord (0xF#4 ++ x ++ 0x33#8) = some (.ldB x) ∧
    ∃ m : Memory, exec (.ldB x) s = .next { s with mem := m, pc := s.pc + 2#16 } ∧
      (m.read (s.ea 0)).toNat = (s.getV x).toNat / 100 ∧
      (m.read (s.ea 1)).toNat = (s.getV x).toNat / 10 % 10 ∧
      (m.read (s.ea 2)).toNat = (s.getV x).toNat % 10 ∧
      ∀ a, a ≠ s.ea 0 → a ≠ s.ea 1 → a ≠ s.ea 2 → m.read a = s.readMem a

/-- Fx55 (R154): `V0`..`Vx` at `EA(0)`..`EA(x)`, every other byte as before; `I` advances only under
`QUIRK_LOADSTORE_ADVANCES_I`. -/
def Obligations.StoreRegistersToMemory : Prop :=
  ∀ (s : State) (x : Reg), decodeWord (0xF#4 ++ x ++ 0x55#8) = some (.storeRegs x) ∧
    ∃ m : Memory, exec (.storeRegs x) s = .next { s with
        mem := m
        i := if s.cfg.quirkLoadStoreAdvancesI then s.i + x.setWidth 16 + 1 else s.i
        pc := s.pc + 2#16 } ∧
      (∀ r : Reg, r.toNat ≤ x.toNat → m.read (s.ea r.toNat) = s.getV r) ∧
      (∀ a, (∀ r : Reg, r.toNat ≤ x.toNat → a ≠ s.ea r.toNat) → m.read a = s.readMem a)

/-- Fx65 (R155): `V0`..`Vx` from `EA(0)`..`EA(x)`, every other register as before; `I` advances only
under `QUIRK_LOADSTORE_ADVANCES_I`. -/
def Obligations.LoadRegistersFromMemory : Prop :=
  ∀ (s : State) (x : Reg), decodeWord (0xF#4 ++ x ++ 0x65#8) = some (.loadRegs x) ∧
    ∃ v : Vector Byte 16, exec (.loadRegs x) s = .next { s with
        v := v
        i := if s.cfg.quirkLoadStoreAdvancesI then s.i + x.setWidth 16 + 1 else s.i
        pc := s.pc + 2#16 } ∧
      ∀ r : Reg, v[r.toNat]'(r.isLt) =
        if r.toNat ≤ x.toNat then s.readMem (s.ea r.toNat) else s.getV r

/-- Fx65 is the inverse of Fx55 at the same `I`: the registers stored come back, whatever the
registers held meanwhile (R154, R155). -/
def Obligations.LoadUndoesStore : Prop :=
  ∀ (s t u : State) (x : Reg), exec (.storeRegs x) s = .next t → u.mem = t.mem → u.i = s.i →
    ∃ w, exec (.loadRegs x) u = .next w ∧ ∀ r : Reg, r.toNat ≤ x.toNat → w.getV r = s.getV r

/-! ### Framebuffer (spec/43_display.md) -/

/-- 00E0 (R171): every pixel 0, and nothing else but `pc` changes. -/
def Obligations.ClearScreen : Prop :=
  decodeWord 0x00E0 = some .cls ∧
  ∀ s : State, ∃ fb : Framebuffer, exec .cls s = .next { s with fb := fb, pc := s.pc + 2#16 } ∧
    ∀ y x, fb.pixel y x = false

/-- Dxyn (R170, R172): every pixel is XORed with the sprite bit on it, with toroidal wrap, and `VF` is
1 iff some sprite bit of 1 met a pixel of 1. The loop of R172 meets this closed form. That n = 0
clears VF is the spec's own decision (D17; log 15). -/
def Obligations.DrawXorsTheSprite : Prop :=
  ∀ (s : State) (x y : Reg) (n : Nibble), decodeWord (0xD#4 ++ x ++ y ++ n) = some (.drw x y n) ∧
    ∃ (fb : Framebuffer) (c : Bool),
      exec (.drw x y n) s =
        .next (((s.setFb fb).setV 0xF#4 (if c then 1#8 else 0#8)).setPc (s.pc + 2#16)) ∧
      (∀ py px, py < 32 → px < 64 → fb.pixel py px = Bool.xor (s.fb.pixel py px)
        (s.spriteBit (s.getV x).toNat (s.getV y).toNat n.toNat py px)) ∧
      (c = true ↔ ∃ py px, py < 32 ∧ px < 64 ∧ s.fb.pixel py px = true ∧
        s.spriteBit (s.getV x).toNat (s.getV y).toNat n.toNat py px = true)

/-- Drawing the same sprite twice at the same place restores the framebuffer (R172), and the second
`VF` is 1 iff some pixel under a sprite bit of 1 was 0 before the first draw (95 L1-4). -/
def Obligations.DoubleDrawRestores : Prop :=
  ∀ (s t u w : State) (x y x' y' : Reg) (n : Nibble),
    exec (.drw x y n) s = .next t → u.fb = t.fb → u.mem = s.mem → u.i = s.i →
    u.getV x' = s.getV x → u.getV y' = s.getV y → exec (.drw x' y' n) u = .next w →
    w.fb = s.fb ∧
    (w.getV 0xF#4 = 1 ↔ ∃ py px, py < 32 ∧ px < 64 ∧ s.fb.pixel py px = false ∧
      s.spriteBit (s.getV x).toNat (s.getV y).toNat n.toNat py px = true)

/-! ### Keys and timers (spec/44_keys_timers.md, spec/60_exceptions.md) -/

/-- Ex9E and ExA1 (R180-R182): the key named by `Vx` decides the skip; an index above 15 is a fault.
That an index above 15 faults is the spec's own decision, marked so at R180 (D18, 90_conflicts.md C3;
log 15). -/
def Obligations.KeySkips : Prop :=
  ∀ (s : State) (x : Reg),
    (decodeWord (0xE#4 ++ x ++ 0x9E#8) = some (.skp x) ∧
      decodeWord (0xE#4 ++ x ++ 0xA1#8) = some (.sknp x)) ∧
    (∀ k : Fin 16, (s.getV x).toNat = k.val →
      exec (.skp x) s = .next { s with pc := if s.keys[k.val] then s.pc + 4#16 else s.pc + 2#16 } ∧
      exec (.sknp x) s = .next { s with pc := if s.keys[k.val] then s.pc + 2#16 else s.pc + 4#16 }) ∧
    (15 < (s.getV x).toNat →
      exec (.skp x) s = .next { s with
        status := .faulted .keyOutOfRange (some s.pc) (some (0xE#4 ++ x ++ 0x9E#8)) } ∧
      exec (.sknp x) s = .next { s with
        status := .faulted .keyOutOfRange (some s.pc) (some (0xE#4 ++ x ++ 0xA1#8)) })

/-- Fx07, Fx15, Fx18 (R183-R185); the sound gate follows `ST` at once (R28). That Fx18 with 0 turns
the gate off at once is the spec's own decision (D20; log 15). -/
def Obligations.TimerTransfers : Prop :=
  ∀ (s : State) (x : Reg),
    (decodeWord (0xF#4 ++ x ++ 0x07#8) = some (.ldVxDt x) ∧
      exec (.ldVxDt x) s = .next ((s.setV x s.dt).setPc (s.pc + 2#16))) ∧
    (decodeWord (0xF#4 ++ x ++ 0x15#8) = some (.ldDtVx x) ∧
      exec (.ldDtVx x) s = .next { s with dt := s.getV x, pc := s.pc + 2#16 }) ∧
    (decodeWord (0xF#4 ++ x ++ 0x18#8) = some (.ldStVx x) ∧
      exec (.ldStVx x) s = .next { s with st := s.getV x, pc := s.pc + 2#16 } ∧
      ({ s with st := s.getV x, pc := s.pc + 2#16 }.soundGate = true ↔ s.getV x ≠ 0))

/-- Fx0A (R186), its four cases: no key pressed; the lowest pressed key arms the latch; the tracked
key still held; the tracked key released, whatever the other keys do. The choice of the lowest key,
and that a key already held counts, are the spec's own decision (D19; log 15). -/
def Obligations.WaitForKey : Prop :=
  ∀ (s : State) (x : Reg), decodeWord (0xF#4 ++ x ++ 0x0A#8) = some (.ldVxK x) ∧
    (s.waitArmed = false → (∀ k, s.key k = false) → exec (.ldVxK x) s = .next s) ∧
    (∀ k : Nibble, s.waitArmed = false → s.key k = true →
      (∀ j : Nibble, j.toNat < k.toNat → s.key j = false) →
      exec (.ldVxK x) s = .next { s with waitArmed := true, waitKey := k }) ∧
    (s.waitArmed = true → s.key s.waitKey = true → exec (.ldVxK x) s = .next s) ∧
    (s.waitArmed = true → s.key s.waitKey = false →
      exec (.ldVxK x) s = .next { s.setV x (s.waitKey.setWidth 8) with
        waitArmed := false, waitKey := 0, pc := s.pc + 2#16 })

/-- `Tick()` (R208): in a running state both timers go down by one and not below zero, and nothing
else changes; in a faulted one nothing changes. That a tick changes nothing in a faulted state is the
spec's own decision (D23; log 15). -/
def Obligations.TickCountsDown : Prop :=
  ∀ s : State,
    (s.status = .running → ∃ d e : Byte, s.tick = { s with dt := d, st := e } ∧
      d.toNat = s.dt.toNat - 1 ∧ e.toNat = s.st.toNat - 1) ∧
    (s.status ≠ .running → s.tick = s)

/-- `SOUND_GATE = (ST != 0)`, so a tick turns it off exactly when `ST` reaches 0 (R28, R208). That a
write of 0 turns the gate off is the spec's own decision (D20; log 15). -/
def Obligations.SoundGateFollowsSoundTimer : Prop :=
  ∀ s : State, (s.soundGate = true ↔ s.st ≠ 0) ∧
    (s.status = .running → (s.tick.soundGate = true ↔ 1 < s.st.toNat))

/-! ### Reset and the host interface (spec/70_reset_and_hazards.md, spec/60_exceptions.md) -/

/-- What the reset state of the model holds (R234, an empty image): the values the spec gives, the key
vector before the first SetKeys among them; the font is the parameter (log 3). The released keys, the
latch and STATUS are the spec's own decisions (D31, D34; logs 6 and 8), and the empty image is the
model's choice (log 9). -/
def Obligations.ResetValues : Prop :=
  (∀ r, State.reset.getV r = 0) ∧ State.reset.i = 0 ∧ State.reset.pc = 0x200 ∧
  State.reset.sp = 0 ∧ (∀ j : Fin 16, State.reset.stack[j.val] = 0) ∧ State.reset.dt = 0 ∧
  State.reset.st = 0 ∧ State.reset.soundGate = false ∧
  (∀ y x, State.reset.fb.pixel y x = false) ∧ State.reset.waitArmed = false ∧
  State.reset.waitKey = 0 ∧ State.reset.status = .running ∧ (∀ k, State.reset.key k = false) ∧
  (∀ a, 0x50 ≤ a → State.reset.readMem a = 0) ∧
  (∀ a (h : a < 0x50), State.reset.readMem a = State.reset.cfg.font[a])

/-- `Reset(image)` with an image that fits, from any state (R230, R231, R234): everything zero, the
font at 0x000, the image verbatim at 0x200, `pc` at 0x200, and the key vector as the host left it. The
values of the latch and of STATUS are the spec's own decision (D34; log 8). -/
def Obligations.ResetLoadsTheImage : Prop :=
  ∀ (s : State) (image : List Byte), image.length ≤ 3584 →
    let t := s.load (some image)
    (∀ r, t.getV r = 0) ∧ t.i = 0 ∧ t.pc = 0x200 ∧ t.sp = 0 ∧
    (∀ j : Fin 16, t.stack[j.val] = 0) ∧ t.dt = 0 ∧ t.st = 0 ∧
    (∀ y x, t.fb.pixel y x = false) ∧ t.waitArmed = false ∧ t.waitKey = 0 ∧
    t.status = .running ∧ t.keys = s.keys ∧
    (∀ a (h : a < 80), t.readMem a = s.cfg.font[a]) ∧
    (∀ a, 80 ≤ a → a < 0x200 → t.readMem a = 0) ∧
    (∀ k (h : k < image.length), t.readMem (0x200 + k) = image[k]) ∧
    (∀ a, 0x200 + image.length ≤ a → t.readMem a = 0)

/-- Load faults (R215): a missing and an oversized image leave the fault, no byte of the image and
`pc` at 0x200 (R232, R233), and the engine never starts; an empty image is no fault, and its first
step meets the word 0x0000. That an empty image loads is the spec's own decision (D32; log 15). -/
def Obligations.LoadFaults : Prop :=
  ∀ s : State,
    (∀ image : Option (List Byte),
      (image = none ∨ ∃ bytes, image = some bytes ∧ 3584 < bytes.length) →
      (s.load image).status = .faulted
        (if image = none then .loadImageMissing else .loadImageTooLarge) none none ∧
      (s.load image).pc = 0x200 ∧
      (∀ a (h : a < 80), (s.load image).readMem a = s.cfg.font[a]) ∧
      (∀ a, 80 ≤ a → (s.load image).readMem a = 0) ∧
      step (s.load image) = .next (s.load image) ∧ (s.load image).tick = s.load image) ∧
    (s.load (some [])).status = .running ∧
    step (s.load (some [])) = .next { s.load (some []) with
      status := .faulted .illegalOpcode (some 0x200) (some 0x0000) }

/-- The host operations besides Reset (R210): SetKeys replaces the key vector alone; Step(rnd) is R76's
step with that draw; Tick is R208; observing changes nothing, and only an address outside `MEM` cannot
be observed (R51). -/
def Obligations.HostOperations : Prop :=
  ∀ s : State,
    (∀ keys, hostApply (.setKeys keys) s = .next { s with keys := keys }) ∧
    (∀ r t, step { s with rnd := some r } = .next t →
      hostApply (.step r) s = .next { t with rnd := none }) ∧
    hostApply .tick s = .next s.tick ∧ hostApply .observe s = .next s ∧
    (∀ a, a < 0x1000 → hostApply (.peek a) s = .next s) ∧
    (∀ a, 0x1000 ≤ a → hostApply (.peek a) s = .fault (.noSuchAddress a))

/-- An `I`-relative address is always an address of `MEM`, equal to `(I + k) mod 0x1000`, and the
addresses of one block differ (R52, R154). That the address wraps, and does not fault, is the spec's
own decision, marked so at R52 (D8; log 15, unsafe). -/
def Obligations.IndexedAddressesWrap : Prop :=
  ∀ (s : State) (j k : Nat), s.ea k < 0x1000 ∧ (s.ea k : Int) = (s.i.toNat + k : Int) % 0x1000 ∧
    (j < 16 → k < 16 → s.ea j = s.ea k → j = k)

/-- An instruction placed by `withFetchWord` is the one the next step runs (R53, R76). -/
def Obligations.PlacedInstructionRuns : Prop :=
  ∀ (s : State) (i : Instr),
    step (s.withFetchWord 16 (encode i).toNat) = exec i (s.withFetchWord 16 (encode i).toNat)
end

