-- ==== Sys2Proof/Laws/Decode.lean ====
section
/-!
SUPPORT. The fields of a word written as its nibbles (R71): for each of the layouts `op nnn`,
`op x kk` and `op x y n`, what each field extractor reads; and the bytes of a word.
-/

namespace Sys2Proof

/-! ### `op nnn` -/

@[simp] theorem opField_nnn (o : Nibble) (a : Addr) : opField (o ++ a) = o := by
  apply BitVec.eq_of_getLsbD_eq
  intro k hk
  simp only [opField, BitVec.getLsbD_extractLsb', BitVec.getLsbD_append]
  simp [hk]

@[simp] theorem nnnField_nnn (o : Nibble) (a : Addr) : nnnField (o ++ a) = a :=
  BitVec.extractLsb'_append_eq_right

/-! ### `op x kk` -/

@[simp] theorem opField_xkk (o : Nibble) (x : Reg) (kk : Byte) : opField (o ++ x ++ kk) = o := by
  apply BitVec.eq_of_getLsbD_eq
  intro k hk
  simp only [opField, BitVec.getLsbD_extractLsb', BitVec.getLsbD_append]
  interval_cases k <;> simp

@[simp] theorem xField_xkk (o : Nibble) (x : Reg) (kk : Byte) : xField (o ++ x ++ kk) = x := by
  apply BitVec.eq_of_getLsbD_eq
  intro k hk
  simp only [xField, BitVec.getLsbD_extractLsb', BitVec.getLsbD_append]
  interval_cases k <;> simp

@[simp] theorem kkField_xkk (o : Nibble) (x : Reg) (kk : Byte) : kkField (o ++ x ++ kk) = kk :=
  BitVec.extractLsb'_append_eq_right

/-! ### `op x y n` -/

@[simp] theorem opField_xyn (o : Nibble) (x y : Reg) (n : Nibble) :
    opField (o ++ x ++ y ++ n) = o := by
  apply BitVec.eq_of_getLsbD_eq
  intro k hk
  simp only [opField, BitVec.getLsbD_extractLsb', BitVec.getLsbD_append]
  interval_cases k <;> simp

@[simp] theorem xField_xyn (o : Nibble) (x y : Reg) (n : Nibble) :
    xField (o ++ x ++ y ++ n) = x := by
  apply BitVec.eq_of_getLsbD_eq
  intro k hk
  simp only [xField, BitVec.getLsbD_extractLsb', BitVec.getLsbD_append]
  interval_cases k <;> simp

@[simp] theorem yField_xyn (o : Nibble) (x y : Reg) (n : Nibble) :
    yField (o ++ x ++ y ++ n) = y := by
  apply BitVec.eq_of_getLsbD_eq
  intro k hk
  simp only [yField, BitVec.getLsbD_extractLsb', BitVec.getLsbD_append]
  interval_cases k <;> simp

@[simp] theorem nField_xyn (o : Nibble) (x y : Reg) (n : Nibble) :
    nField (o ++ x ++ y ++ n) = n :=
  BitVec.extractLsb'_append_eq_right

/-! ### A word is its fields -/

theorem word_eq_nnn (w : Word) : (opField w ++ nnnField w : Word) = w := by
  apply BitVec.eq_of_getLsbD_eq
  intro k hk
  simp only [opField, nnnField, BitVec.getLsbD_extractLsb', BitVec.getLsbD_append]
  interval_cases k <;> simp

theorem word_eq_xkk (w : Word) : (opField w ++ xField w ++ kkField w : Word) = w := by
  apply BitVec.eq_of_getLsbD_eq
  intro k hk
  simp only [opField, xField, kkField, BitVec.getLsbD_extractLsb', BitVec.getLsbD_append]
  interval_cases k <;> simp

theorem word_eq_xyn (w : Word) :
    (opField w ++ xField w ++ yField w ++ nField w : Word) = w := by
  apply BitVec.eq_of_getLsbD_eq
  intro k hk
  simp only [opField, xField, yField, nField, BitVec.getLsbD_extractLsb', BitVec.getLsbD_append]
  interval_cases k <;> simp

/-! ### The bytes of a word -/

@[simp] theorem wordOfBytes_hi_lo (w : Word) : wordOfBytes (hiByte w) (loByte w) = w := by
  apply BitVec.eq_of_getLsbD_eq
  intro k hk
  simp only [wordOfBytes, hiByte, loByte, BitVec.getLsbD_extractLsb', BitVec.getLsbD_append]
  interval_cases k <;> simp

@[simp] theorem hiByte_wordOfBytes (hi lo : Byte) : hiByte (wordOfBytes hi lo) = hi :=
  BitVec.extractLsb'_append_eq_left

@[simp] theorem loByte_wordOfBytes (hi lo : Byte) : loByte (wordOfBytes hi lo) = lo :=
  BitVec.extractLsb'_append_eq_right

/-- The decoder on bytes is the decoder on the word they make (R53, R70). -/
theorem decodeBytes_eq_ok {hi lo : Byte} {rest rest' : List Byte} {i : Instr} :
    decodeBytes (hi :: lo :: rest) = .ok (i, rest') ↔
      decodeWord (wordOfBytes hi lo) = some i ∧ rest' = rest := by
  simp only [decodeBytes]
  cases decodeWord (wordOfBytes hi lo) with
  | none => simp
  | some j => simp [eq_comm]

@[simp] theorem tableWord_toNat (w : Word) : tableWord 16 w.toNat = w := by
  have : w.toNat % 2 ^ min 16 16 = w.toNat := Nat.mod_eq_of_lt w.isLt
  simp only [tableWord, this, BitVec.ofNat_toNat, BitVec.setWidth_eq]

/-- Every instruction's operands are in range: no term is ill-formed (R75). -/
theorem Instr.wellFormed_all (i : Instr) : i.wellFormed = true := by
  have hr : ∀ x : Reg, regOk x = true := fun x => decide_eq_true x.isLt
  have hk : ∀ kk : Byte, immOk kk = true := fun kk => decide_eq_true kk.isLt
  have ha : ∀ a : Addr, addrOk a = true := fun a => decide_eq_true a.isLt
  have hn : ∀ n : Nibble, heightOk n = true := fun n => decide_eq_true n.isLt
  cases i <;> simp [Instr.wellFormed, hr, hk, ha, hn]

end Sys2Proof
end

