-- ==== Sys2Proof/Laws/Flags.lean ====
section
/-!
SUPPORT. The value each flag and arithmetic helper computes, as a plain word operation (R133, R208).
-/

namespace Sys2Proof.Machine

/-- The narrowed sum is the sum modulo 256 (R127). -/
@[simp] theorem sumByte_eq (a b : Byte) : sumByte a b = a + b := by
  apply BitVec.eq_of_toNat_eq
  simp [sumByte]

/-- The narrowed difference is the difference modulo 256 (R128). -/
@[simp] theorem diffByte_eq (a b : Byte) : diffByte a b = a - b := by
  apply BitVec.eq_of_toNat_eq
  have := a.isLt
  have := b.isLt
  simp only [diffByte, BitVec.toNat_ofInt, BitVec.toNat_sub]
  omega

/-- The flag of a right shift is `src & 1` (R129). -/
theorem flagByte_lowBit : ∀ b : Byte, flagByte (lowBit b) = b &&& 1#8 := by decide

/-- The flag of a left shift is `(src >> 7) & 1` (R131). -/
theorem flagByte_highBit : ∀ b : Byte, flagByte (highBit b) = (b >>> 7) &&& 1#8 := by decide

/-- The digit of Fx29 is the low nibble (R152). -/
theorem lowNibble_toNat : ∀ b : Byte, (b &&& 0x0F).toNat = b.toNat % 16 := by decide

/-- A countdown never goes below zero (R208). -/
theorem countDown_toNat : ∀ b : Byte, (countDown b).toNat = b.toNat - 1 := by decide

/-- The advance of `I` is a 16-bit sum (R154, R155). -/
theorem advanceI_word (w : Word) (x : Reg) :
    BitVec.ofNat 16 (w.toNat + x.toNat + 1) = w + x.setWidth 16 + 1#16 := by
  apply BitVec.eq_of_toNat_eq
  simp

end Sys2Proof.Machine
end

