-- ==== Sys2Proof/Laws/Memory.lean ====
section
/-!
SUPPORT. What the memory operations do: a read after a write, and that each keeps the canonical form;
and that two memories in that form which read alike are equal.
-/

namespace Sys2Proof.Machine

theorem Memory.read_erase (m : Memory) (a a' : Nat) :
    (m.erase a).read a' = if a = a' then Memory.background a' else m.read a' := by
  induction m with
  | nil => simp [Memory.erase, Memory.read]
  | cons c m ih =>
    obtain ⟨k, b⟩ := c
    by_cases hk : k = a
    · subst hk
      have : Memory.erase ((k, b) :: m) k = Memory.erase m k := by simp [Memory.erase]
      rw [this, ih]
      by_cases h : k = a' <;> simp [Memory.read, h]
    · have : Memory.erase ((k, b) :: m) a = (k, b) :: Memory.erase m a := by
        simp [Memory.erase, hk]
      rw [this]
      simp only [Memory.read, ih]
      by_cases h : k = a'
      · have : a ≠ a' := fun e => hk (h.trans e.symm)
        simp [h, this]
      · simp [h]

theorem Memory.mem_erase {m : Memory} {a : Nat} {c : Host.Cell} :
    c ∈ m.erase a ↔ c ∈ m ∧ c.1 ≠ a := by
  simp [Memory.erase]

theorem Memory.read_insert (m : Memory) (a a' : Nat) (b : Byte) (h : ∀ c ∈ m, c.1 ≠ a) :
    (m.insert a b).read a' = if a = a' then b else m.read a' := by
  induction m with
  | nil => simp [Memory.insert, Memory.read]
  | cons c m ih =>
    obtain ⟨k, d⟩ := c
    have hk : k ≠ a := h (k, d) (by simp)
    have ih := ih fun c hc => h c (List.mem_cons_of_mem _ hc)
    simp only [Memory.insert]
    split
    · simp only [Memory.read]
    · simp only [Memory.read, ih]
      by_cases hka : k = a'
      · have : a ≠ a' := fun e => hk (hka.trans e.symm)
        simp [hka, this]
      · simp [hka]

/-- A write changes the byte it names and no other (R57). -/
theorem Memory.read_write (m : Memory) (a a' : Nat) (b : Byte) :
    (m.write a b).read a' = if a = a' then b else m.read a' := by
  unfold Memory.write
  split
  next h =>
    rw [Memory.read_erase]
    by_cases e : a = a'
    · subst e; simp [h]
    · simp [e]
  next h =>
    rw [Memory.read_insert _ _ _ _ fun c hc => (Memory.mem_erase.1 hc).2, Memory.read_erase]
    by_cases e : a = a' <;> simp [e]

@[simp] theorem Memory.read_write_self (m : Memory) (a : Nat) (b : Byte) :
    (m.write a b).read a = b := by simp [Memory.read_write]

theorem Memory.read_write_of_ne (m : Memory) {a a' : Nat} (h : a ≠ a') (b : Byte) :
    (m.write a b).read a' = m.read a' := by simp [Memory.read_write, h]

/-! ### The canonical form -/

theorem Memory.risingFrom_mono {lo lo' : Nat} {m : Memory} (h : lo' ≤ lo)
    (hm : Memory.risingFrom lo m = true) : Memory.risingFrom lo' m = true := by
  cases m with
  | nil => rfl
  | cons c m =>
    simp only [Memory.risingFrom, Bool.and_eq_true, decide_eq_true_eq] at hm ⊢
    exact ⟨by omega, hm.2⟩

theorem Memory.risingFrom_erase {lo : Nat} {m : Memory} (a : Nat)
    (hm : Memory.risingFrom lo m = true) : Memory.risingFrom lo (m.erase a) = true := by
  induction m generalizing lo with
  | nil => rfl
  | cons c m ih =>
    simp only [Memory.risingFrom, Bool.and_eq_true, decide_eq_true_eq] at hm
    by_cases hk : c.1 = a
    · have : Memory.erase (c :: m) a = Memory.erase m a := by simp [Memory.erase, hk]
      rw [this]
      exact Memory.risingFrom_mono (by omega) (ih hm.2)
    · have : Memory.erase (c :: m) a = c :: Memory.erase m a := by simp [Memory.erase, hk]
      rw [this]
      simp only [Memory.risingFrom, Bool.and_eq_true, decide_eq_true_eq]
      exact ⟨hm.1, ih hm.2⟩

theorem Memory.risingFrom_insert {lo : Nat} {m : Memory} {a : Nat} (b : Byte) (hlo : lo ≤ a)
    (h : ∀ c ∈ m, c.1 ≠ a) (hm : Memory.risingFrom lo m = true) :
    Memory.risingFrom lo (m.insert a b) = true := by
  induction m generalizing lo with
  | nil => simp [Memory.insert, Memory.risingFrom, hlo]
  | cons c m ih =>
    obtain ⟨k, d⟩ := c
    simp only [Memory.risingFrom, Bool.and_eq_true, decide_eq_true_eq] at hm
    have hk : k ≠ a := h (k, d) (by simp)
    simp only [Memory.insert]
    split
    next hlt =>
      simp only [Memory.risingFrom, Bool.and_eq_true, decide_eq_true_eq]
      exact ⟨hlo, by omega, hm.2⟩
    next hge =>
      simp only [Memory.risingFrom, Bool.and_eq_true, decide_eq_true_eq]
      exact ⟨hm.1, ih (by omega) (fun c hc => h c (List.mem_cons_of_mem _ hc)) hm.2⟩

theorem Memory.mem_insert {m : Memory} {a : Nat} {b : Byte} {c : Host.Cell} :
    c ∈ m.insert a b ↔ c = (a, b) ∨ c ∈ m := by
  induction m with
  | nil => simp [Memory.insert]
  | cons d m ih =>
    obtain ⟨k, e⟩ := d
    simp only [Memory.insert]
    split
    · simp
    · simp only [List.mem_cons, ih]
      tauto

theorem Memory.wf_iff (m : Memory) :
    Memory.wf m = true ↔ Memory.risingFrom 0 m = true ∧
      ∀ c ∈ m, c.1 < 0x1000 ∧ c.2 ≠ Memory.background c.1 := by
  simp only [Memory.wf, Bool.and_eq_true, List.all_eq_true, decide_eq_true_eq, bne_iff_ne]

/-- A write inside the address space keeps the canonical form. -/
theorem Memory.wf_write {m : Memory} {a : Nat} (b : Byte) (ha : a < 0x1000)
    (hm : Memory.wf m = true) : Memory.wf (m.write a b) = true := by
  rw [Memory.wf_iff] at hm ⊢
  have hr := Memory.risingFrom_erase a hm.1
  have he : ∀ c ∈ m.erase a, c.1 < 0x1000 ∧ c.2 ≠ Memory.background c.1 :=
    fun c hc => hm.2 c (Memory.mem_erase.1 hc).1
  unfold Memory.write
  split
  next => exact ⟨hr, he⟩
  next hb =>
    refine ⟨Memory.risingFrom_insert b (Nat.zero_le _)
      (fun c hc => (Memory.mem_erase.1 hc).2) hr, fun c hc => ?_⟩
    rcases Memory.mem_insert.1 hc with rfl | hc
    · exact ⟨ha, hb⟩
    · exact he c hc

/-- So does writing a block of bytes inside it. -/
theorem Memory.wf_load {m : Memory} {a : Nat} {bs : List Byte} (h : a + bs.length ≤ 0x1000)
    (hm : Memory.wf m = true) : Memory.wf (m.load a bs) = true := by
  induction bs generalizing m a with
  | nil => exact hm
  | cons b bs ih =>
    simp only [List.length_cons] at h
    exact ih (by omega) (Memory.wf_write b (by omega) hm)

/-- A block of bytes written at ascending addresses reads back, and nothing else changes. -/
theorem Memory.read_load (m : Memory) (a a' : Nat) (bs : List Byte) :
    (m.load a bs).read a' =
      if h : a ≤ a' ∧ a' - a < bs.length then bs[a' - a]'h.2 else m.read a' := by
  induction bs generalizing m a with
  | nil => simp [Memory.load]
  | cons b bs ih =>
    simp only [Memory.load, ih, Memory.read_write, List.length_cons]
    by_cases h1 : a = a'
    · subst h1
      simp
    · by_cases h2 : a + 1 ≤ a' ∧ a' - (a + 1) < bs.length
      · have h3 : a ≤ a' ∧ a' - a < bs.length + 1 := by omega
        have h4 : a' - a = (a' - (a + 1)) + 1 := by omega
        simp [h2, h3, h4]
      · have h3 : ¬(a ≤ a' ∧ a' - a < bs.length + 1) := by omega
        simp only [dif_neg h2, dif_neg h3, if_neg h1]

/-! ### Equal memories are equal data -/

theorem Memory.read_of_risingFrom {lo a : Nat} {m : Memory} (ha : a < lo)
    (hm : Memory.risingFrom lo m = true) : m.read a = Memory.background a := by
  induction m generalizing lo with
  | nil => rfl
  | cons c m ih =>
    obtain ⟨k, b⟩ := c
    simp only [Memory.risingFrom, Bool.and_eq_true, decide_eq_true_eq] at hm
    have : k ≠ a := by omega
    simp only [Memory.read, if_neg this]
    exact ih (by omega) hm.2

/-- Two canonical memories with the same bytes are the same list. -/
theorem Memory.ext_of_wf {m m' : Memory} (hm : Memory.wf m = true) (hm' : Memory.wf m' = true)
    (h : ∀ a, m.read a = m'.read a) : m = m' := by
  rw [Memory.wf_iff] at hm hm'
  obtain ⟨hr, hb⟩ := hm
  obtain ⟨hr', hb'⟩ := hm'
  revert hr hr'
  generalize 0 = lo
  intro hr hr'
  induction m generalizing m' lo with
  | nil =>
    cases m' with
    | nil => rfl
    | cons c' m' =>
      have := h c'.1
      simp [Memory.read] at this
      exact absurd this.symm (hb' c' (by simp)).2
  | cons c m ih =>
    cases m' with
    | nil =>
      have := h c.1
      simp [Memory.read] at this
      exact absurd this (hb c (by simp)).2
    | cons c' m' =>
      simp only [Memory.risingFrom, Bool.and_eq_true, decide_eq_true_eq] at hr hr'
      have hc : c.1 = c'.1 := by
        rcases Nat.lt_trichotomy c.1 c'.1 with hlt | heq | hgt
        · have := h c.1
          simp only [Memory.read, if_true, if_neg (Nat.ne_of_gt hlt)] at this
          rw [Memory.read_of_risingFrom (by omega) hr'.2] at this
          exact absurd this (hb c (by simp)).2
        · exact heq
        · have := h c'.1
          simp only [Memory.read, if_true, if_neg (Nat.ne_of_gt hgt)] at this
          rw [Memory.read_of_risingFrom (by omega) hr.2] at this
          exact absurd this.symm (hb' c' (by simp)).2
      have hd : c.2 = c'.2 := by
        have := h c.1
        simp only [Memory.read, if_true, if_pos hc.symm] at this
        exact this
      have : c = c' := Prod.ext hc hd
      subst this
      congr 1
      refine ih (lo := c.1 + 1) (fun a => ?_) (fun c hc => hb c (List.mem_cons_of_mem _ hc))
        (fun c hc => hb' c (List.mem_cons_of_mem _ hc)) hr.2 hr'.2
      by_cases ha : a < c.1 + 1
      · rw [Memory.read_of_risingFrom ha hr.2, Memory.read_of_risingFrom ha hr'.2]
      · have := h a
        have hne : c.1 ≠ a := by omega
        simpa only [Memory.read, if_neg hne] using this

/-! ### Addresses -/

/-- `EA(k)` is always an address of `MEM` (R52). -/
theorem ea_lt (s : State) (k : Nat) : s.ea k < 0x1000 := Nat.mod_lt _ (by decide)

/-- The bytes of one block lie at different addresses (R154). -/
theorem ea_ne (s : State) {j k : Nat} (hj : j < 0x1000) (hk : k < 0x1000) (h : j ≠ k) :
    s.ea j ≠ s.ea k := by
  unfold State.ea
  omega

theorem wf_storeBlock (s : State) (n : Nat) (h : Memory.wf s.mem = true) :
    Memory.wf (s.storeBlock n) = true := by
  induction n with
  | zero => exact h
  | succ n ih => exact Memory.wf_write _ (ea_lt _ _) ih

theorem wf_bcdBlock (s : State) (b : Byte) (h : Memory.wf s.mem = true) :
    Memory.wf (s.bcdBlock b) = true :=
  Memory.wf_write _ (ea_lt _ _) (Memory.wf_write _ (ea_lt _ _) (Memory.wf_write _ (ea_lt _ _) h))

/-- Reset's memory is canonical. -/
theorem reset_mem_wf : Memory.wf State.reset.mem = true := rfl

end Sys2Proof.Machine
end

