-- ==== Sys2Proof/Laws/State.lean ====
section
/-!
SUPPORT. For each update of the state, what every field holds after it, and that the derived reads it
does not touch are unchanged; and the composite updates written as plain ones.
-/

namespace Sys2Proof.Machine

variable (s : State)

/-! ### setV -/

@[simp] theorem setV_i (x : Reg) (b : Byte) : (s.setV x b).i = s.i := rfl
@[simp] theorem setV_pc (x : Reg) (b : Byte) : (s.setV x b).pc = s.pc := rfl
@[simp] theorem setV_sp (x : Reg) (b : Byte) : (s.setV x b).sp = s.sp := rfl
@[simp] theorem setV_stack (x : Reg) (b : Byte) : (s.setV x b).stack = s.stack := rfl
@[simp] theorem setV_dt (x : Reg) (b : Byte) : (s.setV x b).dt = s.dt := rfl
@[simp] theorem setV_st (x : Reg) (b : Byte) : (s.setV x b).st = s.st := rfl
@[simp] theorem setV_mem (x : Reg) (b : Byte) : (s.setV x b).mem = s.mem := rfl
@[simp] theorem setV_fb (x : Reg) (b : Byte) : (s.setV x b).fb = s.fb := rfl
@[simp] theorem setV_keys (x : Reg) (b : Byte) : (s.setV x b).keys = s.keys := rfl
@[simp] theorem setV_waitArmed (x : Reg) (b : Byte) : (s.setV x b).waitArmed = s.waitArmed := rfl
@[simp] theorem setV_waitKey (x : Reg) (b : Byte) : (s.setV x b).waitKey = s.waitKey := rfl
@[simp] theorem setV_status (x : Reg) (b : Byte) : (s.setV x b).status = s.status := rfl
@[simp] theorem setV_cfg (x : Reg) (b : Byte) : (s.setV x b).cfg = s.cfg := rfl
@[simp] theorem setV_rnd (x : Reg) (b : Byte) : (s.setV x b).rnd = s.rnd := rfl
@[simp] theorem setV_draws (x : Reg) (b : Byte) : (s.setV x b).draws = s.draws := rfl
@[simp] theorem setV_readMem (x : Reg) (b : Byte) (a : Nat) : (s.setV x b).readMem a = s.readMem a := rfl
@[simp] theorem setV_ea (x : Reg) (b : Byte) (n : Nat) : (s.setV x b).ea n = s.ea n := rfl
@[simp] theorem setV_key (x : Reg) (b : Byte) (n : Nibble) : (s.setV x b).key n = s.key n := rfl
@[simp] theorem setV_fetchWord (x : Reg) (b : Byte) : (s.setV x b).fetchWord = s.fetchWord := rfl
@[simp] theorem setV_canFetch (x : Reg) (b : Byte) : (s.setV x b).canFetch = s.canFetch := rfl
@[simp] theorem setV_top (x : Reg) (b : Byte) : (s.setV x b).top = s.top := rfl
@[simp] theorem setV_leastPressed (x : Reg) (b : Byte) : (s.setV x b).leastPressed = s.leastPressed := rfl
@[simp] theorem setV_drawn (x : Reg) (b : Byte) : (s.setV x b).drawn = s.drawn := rfl
@[simp] theorem setV_soundGate (x : Reg) (b : Byte) : (s.setV x b).soundGate = s.soundGate := rfl

/-! ### setI -/

@[simp] theorem setI_v (w : Word) : (s.setI w).v = s.v := rfl
@[simp] theorem setI_i (w : Word) : (s.setI w).i = w := rfl
@[simp] theorem setI_pc (w : Word) : (s.setI w).pc = s.pc := rfl
@[simp] theorem setI_sp (w : Word) : (s.setI w).sp = s.sp := rfl
@[simp] theorem setI_stack (w : Word) : (s.setI w).stack = s.stack := rfl
@[simp] theorem setI_dt (w : Word) : (s.setI w).dt = s.dt := rfl
@[simp] theorem setI_st (w : Word) : (s.setI w).st = s.st := rfl
@[simp] theorem setI_mem (w : Word) : (s.setI w).mem = s.mem := rfl
@[simp] theorem setI_fb (w : Word) : (s.setI w).fb = s.fb := rfl
@[simp] theorem setI_keys (w : Word) : (s.setI w).keys = s.keys := rfl
@[simp] theorem setI_waitArmed (w : Word) : (s.setI w).waitArmed = s.waitArmed := rfl
@[simp] theorem setI_waitKey (w : Word) : (s.setI w).waitKey = s.waitKey := rfl
@[simp] theorem setI_status (w : Word) : (s.setI w).status = s.status := rfl
@[simp] theorem setI_cfg (w : Word) : (s.setI w).cfg = s.cfg := rfl
@[simp] theorem setI_rnd (w : Word) : (s.setI w).rnd = s.rnd := rfl
@[simp] theorem setI_draws (w : Word) : (s.setI w).draws = s.draws := rfl
@[simp] theorem setI_getV (w : Word) (y : Reg) : (s.setI w).getV y = s.getV y := rfl
@[simp] theorem setI_readMem (w : Word) (a : Nat) : (s.setI w).readMem a = s.readMem a := rfl
@[simp] theorem setI_key (w : Word) (n : Nibble) : (s.setI w).key n = s.key n := rfl
@[simp] theorem setI_fetchWord (w : Word) : (s.setI w).fetchWord = s.fetchWord := rfl
@[simp] theorem setI_canFetch (w : Word) : (s.setI w).canFetch = s.canFetch := rfl
@[simp] theorem setI_top (w : Word) : (s.setI w).top = s.top := rfl
@[simp] theorem setI_leastPressed (w : Word) : (s.setI w).leastPressed = s.leastPressed := rfl
@[simp] theorem setI_drawn (w : Word) : (s.setI w).drawn = s.drawn := rfl
@[simp] theorem setI_soundGate (w : Word) : (s.setI w).soundGate = s.soundGate := rfl

/-! ### setPc -/

@[simp] theorem setPc_v (t : Word) : (s.setPc t).v = s.v := rfl
@[simp] theorem setPc_i (t : Word) : (s.setPc t).i = s.i := rfl
@[simp] theorem setPc_pc (t : Word) : (s.setPc t).pc = t := rfl
@[simp] theorem setPc_sp (t : Word) : (s.setPc t).sp = s.sp := rfl
@[simp] theorem setPc_stack (t : Word) : (s.setPc t).stack = s.stack := rfl
@[simp] theorem setPc_dt (t : Word) : (s.setPc t).dt = s.dt := rfl
@[simp] theorem setPc_st (t : Word) : (s.setPc t).st = s.st := rfl
@[simp] theorem setPc_mem (t : Word) : (s.setPc t).mem = s.mem := rfl
@[simp] theorem setPc_fb (t : Word) : (s.setPc t).fb = s.fb := rfl
@[simp] theorem setPc_keys (t : Word) : (s.setPc t).keys = s.keys := rfl
@[simp] theorem setPc_waitArmed (t : Word) : (s.setPc t).waitArmed = s.waitArmed := rfl
@[simp] theorem setPc_waitKey (t : Word) : (s.setPc t).waitKey = s.waitKey := rfl
@[simp] theorem setPc_status (t : Word) : (s.setPc t).status = s.status := rfl
@[simp] theorem setPc_cfg (t : Word) : (s.setPc t).cfg = s.cfg := rfl
@[simp] theorem setPc_rnd (t : Word) : (s.setPc t).rnd = s.rnd := rfl
@[simp] theorem setPc_draws (t : Word) : (s.setPc t).draws = s.draws := rfl
@[simp] theorem setPc_getV (t : Word) (y : Reg) : (s.setPc t).getV y = s.getV y := rfl
@[simp] theorem setPc_readMem (t : Word) (a : Nat) : (s.setPc t).readMem a = s.readMem a := rfl
@[simp] theorem setPc_ea (t : Word) (n : Nat) : (s.setPc t).ea n = s.ea n := rfl
@[simp] theorem setPc_key (t : Word) (n : Nibble) : (s.setPc t).key n = s.key n := rfl
@[simp] theorem setPc_top (t : Word) : (s.setPc t).top = s.top := rfl
@[simp] theorem setPc_leastPressed (t : Word) : (s.setPc t).leastPressed = s.leastPressed := rfl
@[simp] theorem setPc_drawn (t : Word) : (s.setPc t).drawn = s.drawn := rfl
@[simp] theorem setPc_soundGate (t : Word) : (s.setPc t).soundGate = s.soundGate := rfl

/-! ### setStack -/

@[simp] theorem setStack_v (p : Fin 17) (k : Vector Word 16) : (s.setStack p k).v = s.v := rfl
@[simp] theorem setStack_i (p : Fin 17) (k : Vector Word 16) : (s.setStack p k).i = s.i := rfl
@[simp] theorem setStack_pc (p : Fin 17) (k : Vector Word 16) : (s.setStack p k).pc = s.pc := rfl
@[simp] theorem setStack_sp (p : Fin 17) (k : Vector Word 16) : (s.setStack p k).sp = p := rfl
@[simp] theorem setStack_stack (p : Fin 17) (k : Vector Word 16) : (s.setStack p k).stack = k := rfl
@[simp] theorem setStack_dt (p : Fin 17) (k : Vector Word 16) : (s.setStack p k).dt = s.dt := rfl
@[simp] theorem setStack_st (p : Fin 17) (k : Vector Word 16) : (s.setStack p k).st = s.st := rfl
@[simp] theorem setStack_mem (p : Fin 17) (k : Vector Word 16) : (s.setStack p k).mem = s.mem := rfl
@[simp] theorem setStack_fb (p : Fin 17) (k : Vector Word 16) : (s.setStack p k).fb = s.fb := rfl
@[simp] theorem setStack_keys (p : Fin 17) (k : Vector Word 16) : (s.setStack p k).keys = s.keys := rfl
@[simp] theorem setStack_waitArmed (p : Fin 17) (k : Vector Word 16) : (s.setStack p k).waitArmed = s.waitArmed := rfl
@[simp] theorem setStack_waitKey (p : Fin 17) (k : Vector Word 16) : (s.setStack p k).waitKey = s.waitKey := rfl
@[simp] theorem setStack_status (p : Fin 17) (k : Vector Word 16) : (s.setStack p k).status = s.status := rfl
@[simp] theorem setStack_cfg (p : Fin 17) (k : Vector Word 16) : (s.setStack p k).cfg = s.cfg := rfl
@[simp] theorem setStack_rnd (p : Fin 17) (k : Vector Word 16) : (s.setStack p k).rnd = s.rnd := rfl
@[simp] theorem setStack_draws (p : Fin 17) (k : Vector Word 16) : (s.setStack p k).draws = s.draws := rfl
@[simp] theorem setStack_getV (p : Fin 17) (k : Vector Word 16) (y : Reg) : (s.setStack p k).getV y = s.getV y := rfl
@[simp] theorem setStack_readMem (p : Fin 17) (k : Vector Word 16) (a : Nat) : (s.setStack p k).readMem a = s.readMem a := rfl
@[simp] theorem setStack_ea (p : Fin 17) (k : Vector Word 16) (n : Nat) : (s.setStack p k).ea n = s.ea n := rfl
@[simp] theorem setStack_key (p : Fin 17) (k : Vector Word 16) (n : Nibble) : (s.setStack p k).key n = s.key n := rfl
@[simp] theorem setStack_fetchWord (p : Fin 17) (k : Vector Word 16) : (s.setStack p k).fetchWord = s.fetchWord := rfl
@[simp] theorem setStack_canFetch (p : Fin 17) (k : Vector Word 16) : (s.setStack p k).canFetch = s.canFetch := rfl
@[simp] theorem setStack_leastPressed (p : Fin 17) (k : Vector Word 16) : (s.setStack p k).leastPressed = s.leastPressed := rfl
@[simp] theorem setStack_drawn (p : Fin 17) (k : Vector Word 16) : (s.setStack p k).drawn = s.drawn := rfl
@[simp] theorem setStack_soundGate (p : Fin 17) (k : Vector Word 16) : (s.setStack p k).soundGate = s.soundGate := rfl

/-! ### setDt -/

@[simp] theorem setDt_v (b : Byte) : (s.setDt b).v = s.v := rfl
@[simp] theorem setDt_i (b : Byte) : (s.setDt b).i = s.i := rfl
@[simp] theorem setDt_pc (b : Byte) : (s.setDt b).pc = s.pc := rfl
@[simp] theorem setDt_sp (b : Byte) : (s.setDt b).sp = s.sp := rfl
@[simp] theorem setDt_stack (b : Byte) : (s.setDt b).stack = s.stack := rfl
@[simp] theorem setDt_dt (b : Byte) : (s.setDt b).dt = b := rfl
@[simp] theorem setDt_st (b : Byte) : (s.setDt b).st = s.st := rfl
@[simp] theorem setDt_mem (b : Byte) : (s.setDt b).mem = s.mem := rfl
@[simp] theorem setDt_fb (b : Byte) : (s.setDt b).fb = s.fb := rfl
@[simp] theorem setDt_keys (b : Byte) : (s.setDt b).keys = s.keys := rfl
@[simp] theorem setDt_waitArmed (b : Byte) : (s.setDt b).waitArmed = s.waitArmed := rfl
@[simp] theorem setDt_waitKey (b : Byte) : (s.setDt b).waitKey = s.waitKey := rfl
@[simp] theorem setDt_status (b : Byte) : (s.setDt b).status = s.status := rfl
@[simp] theorem setDt_cfg (b : Byte) : (s.setDt b).cfg = s.cfg := rfl
@[simp] theorem setDt_rnd (b : Byte) : (s.setDt b).rnd = s.rnd := rfl
@[simp] theorem setDt_draws (b : Byte) : (s.setDt b).draws = s.draws := rfl
@[simp] theorem setDt_getV (b : Byte) (y : Reg) : (s.setDt b).getV y = s.getV y := rfl
@[simp] theorem setDt_readMem (b : Byte) (a : Nat) : (s.setDt b).readMem a = s.readMem a := rfl
@[simp] theorem setDt_ea (b : Byte) (n : Nat) : (s.setDt b).ea n = s.ea n := rfl
@[simp] theorem setDt_key (b : Byte) (n : Nibble) : (s.setDt b).key n = s.key n := rfl
@[simp] theorem setDt_fetchWord (b : Byte) : (s.setDt b).fetchWord = s.fetchWord := rfl
@[simp] theorem setDt_canFetch (b : Byte) : (s.setDt b).canFetch = s.canFetch := rfl
@[simp] theorem setDt_top (b : Byte) : (s.setDt b).top = s.top := rfl
@[simp] theorem setDt_leastPressed (b : Byte) : (s.setDt b).leastPressed = s.leastPressed := rfl
@[simp] theorem setDt_drawn (b : Byte) : (s.setDt b).drawn = s.drawn := rfl
@[simp] theorem setDt_soundGate (b : Byte) : (s.setDt b).soundGate = s.soundGate := rfl

/-! ### setSt -/

@[simp] theorem setSt_v (b : Byte) : (s.setSt b).v = s.v := rfl
@[simp] theorem setSt_i (b : Byte) : (s.setSt b).i = s.i := rfl
@[simp] theorem setSt_pc (b : Byte) : (s.setSt b).pc = s.pc := rfl
@[simp] theorem setSt_sp (b : Byte) : (s.setSt b).sp = s.sp := rfl
@[simp] theorem setSt_stack (b : Byte) : (s.setSt b).stack = s.stack := rfl
@[simp] theorem setSt_dt (b : Byte) : (s.setSt b).dt = s.dt := rfl
@[simp] theorem setSt_st (b : Byte) : (s.setSt b).st = b := rfl
@[simp] theorem setSt_mem (b : Byte) : (s.setSt b).mem = s.mem := rfl
@[simp] theorem setSt_fb (b : Byte) : (s.setSt b).fb = s.fb := rfl
@[simp] theorem setSt_keys (b : Byte) : (s.setSt b).keys = s.keys := rfl
@[simp] theorem setSt_waitArmed (b : Byte) : (s.setSt b).waitArmed = s.waitArmed := rfl
@[simp] theorem setSt_waitKey (b : Byte) : (s.setSt b).waitKey = s.waitKey := rfl
@[simp] theorem setSt_status (b : Byte) : (s.setSt b).status = s.status := rfl
@[simp] theorem setSt_cfg (b : Byte) : (s.setSt b).cfg = s.cfg := rfl
@[simp] theorem setSt_rnd (b : Byte) : (s.setSt b).rnd = s.rnd := rfl
@[simp] theorem setSt_draws (b : Byte) : (s.setSt b).draws = s.draws := rfl
@[simp] theorem setSt_getV (b : Byte) (y : Reg) : (s.setSt b).getV y = s.getV y := rfl
@[simp] theorem setSt_readMem (b : Byte) (a : Nat) : (s.setSt b).readMem a = s.readMem a := rfl
@[simp] theorem setSt_ea (b : Byte) (n : Nat) : (s.setSt b).ea n = s.ea n := rfl
@[simp] theorem setSt_key (b : Byte) (n : Nibble) : (s.setSt b).key n = s.key n := rfl
@[simp] theorem setSt_fetchWord (b : Byte) : (s.setSt b).fetchWord = s.fetchWord := rfl
@[simp] theorem setSt_canFetch (b : Byte) : (s.setSt b).canFetch = s.canFetch := rfl
@[simp] theorem setSt_top (b : Byte) : (s.setSt b).top = s.top := rfl
@[simp] theorem setSt_leastPressed (b : Byte) : (s.setSt b).leastPressed = s.leastPressed := rfl
@[simp] theorem setSt_drawn (b : Byte) : (s.setSt b).drawn = s.drawn := rfl

/-! ### setMem -/

@[simp] theorem setMem_v (m : Memory) : (s.setMem m).v = s.v := rfl
@[simp] theorem setMem_i (m : Memory) : (s.setMem m).i = s.i := rfl
@[simp] theorem setMem_pc (m : Memory) : (s.setMem m).pc = s.pc := rfl
@[simp] theorem setMem_sp (m : Memory) : (s.setMem m).sp = s.sp := rfl
@[simp] theorem setMem_stack (m : Memory) : (s.setMem m).stack = s.stack := rfl
@[simp] theorem setMem_dt (m : Memory) : (s.setMem m).dt = s.dt := rfl
@[simp] theorem setMem_st (m : Memory) : (s.setMem m).st = s.st := rfl
@[simp] theorem setMem_mem (m : Memory) : (s.setMem m).mem = m := rfl
@[simp] theorem setMem_fb (m : Memory) : (s.setMem m).fb = s.fb := rfl
@[simp] theorem setMem_keys (m : Memory) : (s.setMem m).keys = s.keys := rfl
@[simp] theorem setMem_waitArmed (m : Memory) : (s.setMem m).waitArmed = s.waitArmed := rfl
@[simp] theorem setMem_waitKey (m : Memory) : (s.setMem m).waitKey = s.waitKey := rfl
@[simp] theorem setMem_status (m : Memory) : (s.setMem m).status = s.status := rfl
@[simp] theorem setMem_cfg (m : Memory) : (s.setMem m).cfg = s.cfg := rfl
@[simp] theorem setMem_rnd (m : Memory) : (s.setMem m).rnd = s.rnd := rfl
@[simp] theorem setMem_draws (m : Memory) : (s.setMem m).draws = s.draws := rfl
@[simp] theorem setMem_getV (m : Memory) (y : Reg) : (s.setMem m).getV y = s.getV y := rfl
@[simp] theorem setMem_ea (m : Memory) (n : Nat) : (s.setMem m).ea n = s.ea n := rfl
@[simp] theorem setMem_key (m : Memory) (n : Nibble) : (s.setMem m).key n = s.key n := rfl
@[simp] theorem setMem_canFetch (m : Memory) : (s.setMem m).canFetch = s.canFetch := rfl
@[simp] theorem setMem_top (m : Memory) : (s.setMem m).top = s.top := rfl
@[simp] theorem setMem_leastPressed (m : Memory) : (s.setMem m).leastPressed = s.leastPressed := rfl
@[simp] theorem setMem_drawn (m : Memory) : (s.setMem m).drawn = s.drawn := rfl
@[simp] theorem setMem_soundGate (m : Memory) : (s.setMem m).soundGate = s.soundGate := rfl

/-! ### setFb -/

@[simp] theorem setFb_v (f : Framebuffer) : (s.setFb f).v = s.v := rfl
@[simp] theorem setFb_i (f : Framebuffer) : (s.setFb f).i = s.i := rfl
@[simp] theorem setFb_pc (f : Framebuffer) : (s.setFb f).pc = s.pc := rfl
@[simp] theorem setFb_sp (f : Framebuffer) : (s.setFb f).sp = s.sp := rfl
@[simp] theorem setFb_stack (f : Framebuffer) : (s.setFb f).stack = s.stack := rfl
@[simp] theorem setFb_dt (f : Framebuffer) : (s.setFb f).dt = s.dt := rfl
@[simp] theorem setFb_st (f : Framebuffer) : (s.setFb f).st = s.st := rfl
@[simp] theorem setFb_mem (f : Framebuffer) : (s.setFb f).mem = s.mem := rfl
@[simp] theorem setFb_fb (f : Framebuffer) : (s.setFb f).fb = f := rfl
@[simp] theorem setFb_keys (f : Framebuffer) : (s.setFb f).keys = s.keys := rfl
@[simp] theorem setFb_waitArmed (f : Framebuffer) : (s.setFb f).waitArmed = s.waitArmed := rfl
@[simp] theorem setFb_waitKey (f : Framebuffer) : (s.setFb f).waitKey = s.waitKey := rfl
@[simp] theorem setFb_status (f : Framebuffer) : (s.setFb f).status = s.status := rfl
@[simp] theorem setFb_cfg (f : Framebuffer) : (s.setFb f).cfg = s.cfg := rfl
@[simp] theorem setFb_rnd (f : Framebuffer) : (s.setFb f).rnd = s.rnd := rfl
@[simp] theorem setFb_draws (f : Framebuffer) : (s.setFb f).draws = s.draws := rfl
@[simp] theorem setFb_getV (f : Framebuffer) (y : Reg) : (s.setFb f).getV y = s.getV y := rfl
@[simp] theorem setFb_readMem (f : Framebuffer) (a : Nat) : (s.setFb f).readMem a = s.readMem a := rfl
@[simp] theorem setFb_ea (f : Framebuffer) (n : Nat) : (s.setFb f).ea n = s.ea n := rfl
@[simp] theorem setFb_key (f : Framebuffer) (n : Nibble) : (s.setFb f).key n = s.key n := rfl
@[simp] theorem setFb_fetchWord (f : Framebuffer) : (s.setFb f).fetchWord = s.fetchWord := rfl
@[simp] theorem setFb_canFetch (f : Framebuffer) : (s.setFb f).canFetch = s.canFetch := rfl
@[simp] theorem setFb_top (f : Framebuffer) : (s.setFb f).top = s.top := rfl
@[simp] theorem setFb_leastPressed (f : Framebuffer) : (s.setFb f).leastPressed = s.leastPressed := rfl
@[simp] theorem setFb_drawn (f : Framebuffer) : (s.setFb f).drawn = s.drawn := rfl
@[simp] theorem setFb_soundGate (f : Framebuffer) : (s.setFb f).soundGate = s.soundGate := rfl

/-! ### setKeys -/

@[simp] theorem setKeys_v (k : Vector Bool 16) : (s.setKeys k).v = s.v := rfl
@[simp] theorem setKeys_i (k : Vector Bool 16) : (s.setKeys k).i = s.i := rfl
@[simp] theorem setKeys_pc (k : Vector Bool 16) : (s.setKeys k).pc = s.pc := rfl
@[simp] theorem setKeys_sp (k : Vector Bool 16) : (s.setKeys k).sp = s.sp := rfl
@[simp] theorem setKeys_stack (k : Vector Bool 16) : (s.setKeys k).stack = s.stack := rfl
@[simp] theorem setKeys_dt (k : Vector Bool 16) : (s.setKeys k).dt = s.dt := rfl
@[simp] theorem setKeys_st (k : Vector Bool 16) : (s.setKeys k).st = s.st := rfl
@[simp] theorem setKeys_mem (k : Vector Bool 16) : (s.setKeys k).mem = s.mem := rfl
@[simp] theorem setKeys_fb (k : Vector Bool 16) : (s.setKeys k).fb = s.fb := rfl
@[simp] theorem setKeys_keys (k : Vector Bool 16) : (s.setKeys k).keys = k := rfl
@[simp] theorem setKeys_waitArmed (k : Vector Bool 16) : (s.setKeys k).waitArmed = s.waitArmed := rfl
@[simp] theorem setKeys_waitKey (k : Vector Bool 16) : (s.setKeys k).waitKey = s.waitKey := rfl
@[simp] theorem setKeys_status (k : Vector Bool 16) : (s.setKeys k).status = s.status := rfl
@[simp] theorem setKeys_cfg (k : Vector Bool 16) : (s.setKeys k).cfg = s.cfg := rfl
@[simp] theorem setKeys_rnd (k : Vector Bool 16) : (s.setKeys k).rnd = s.rnd := rfl
@[simp] theorem setKeys_draws (k : Vector Bool 16) : (s.setKeys k).draws = s.draws := rfl
@[simp] theorem setKeys_getV (k : Vector Bool 16) (y : Reg) : (s.setKeys k).getV y = s.getV y := rfl
@[simp] theorem setKeys_readMem (k : Vector Bool 16) (a : Nat) : (s.setKeys k).readMem a = s.readMem a := rfl
@[simp] theorem setKeys_ea (k : Vector Bool 16) (n : Nat) : (s.setKeys k).ea n = s.ea n := rfl
@[simp] theorem setKeys_fetchWord (k : Vector Bool 16) : (s.setKeys k).fetchWord = s.fetchWord := rfl
@[simp] theorem setKeys_canFetch (k : Vector Bool 16) : (s.setKeys k).canFetch = s.canFetch := rfl
@[simp] theorem setKeys_top (k : Vector Bool 16) : (s.setKeys k).top = s.top := rfl
@[simp] theorem setKeys_drawn (k : Vector Bool 16) : (s.setKeys k).drawn = s.drawn := rfl
@[simp] theorem setKeys_soundGate (k : Vector Bool 16) : (s.setKeys k).soundGate = s.soundGate := rfl

/-! ### setLatch -/

@[simp] theorem setLatch_v (p : Bool) (k : Nibble) : (s.setLatch p k).v = s.v := rfl
@[simp] theorem setLatch_i (p : Bool) (k : Nibble) : (s.setLatch p k).i = s.i := rfl
@[simp] theorem setLatch_pc (p : Bool) (k : Nibble) : (s.setLatch p k).pc = s.pc := rfl
@[simp] theorem setLatch_sp (p : Bool) (k : Nibble) : (s.setLatch p k).sp = s.sp := rfl
@[simp] theorem setLatch_stack (p : Bool) (k : Nibble) : (s.setLatch p k).stack = s.stack := rfl
@[simp] theorem setLatch_dt (p : Bool) (k : Nibble) : (s.setLatch p k).dt = s.dt := rfl
@[simp] theorem setLatch_st (p : Bool) (k : Nibble) : (s.setLatch p k).st = s.st := rfl
@[simp] theorem setLatch_mem (p : Bool) (k : Nibble) : (s.setLatch p k).mem = s.mem := rfl
@[simp] theorem setLatch_fb (p : Bool) (k : Nibble) : (s.setLatch p k).fb = s.fb := rfl
@[simp] theorem setLatch_keys (p : Bool) (k : Nibble) : (s.setLatch p k).keys = s.keys := rfl
@[simp] theorem setLatch_waitArmed (p : Bool) (k : Nibble) : (s.setLatch p k).waitArmed = p := rfl
@[simp] theorem setLatch_waitKey (p : Bool) (k : Nibble) : (s.setLatch p k).waitKey = k := rfl
@[simp] theorem setLatch_status (p : Bool) (k : Nibble) : (s.setLatch p k).status = s.status := rfl
@[simp] theorem setLatch_cfg (p : Bool) (k : Nibble) : (s.setLatch p k).cfg = s.cfg := rfl
@[simp] theorem setLatch_rnd (p : Bool) (k : Nibble) : (s.setLatch p k).rnd = s.rnd := rfl
@[simp] theorem setLatch_draws (p : Bool) (k : Nibble) : (s.setLatch p k).draws = s.draws := rfl
@[simp] theorem setLatch_getV (p : Bool) (k : Nibble) (y : Reg) : (s.setLatch p k).getV y = s.getV y := rfl
@[simp] theorem setLatch_readMem (p : Bool) (k : Nibble) (a : Nat) : (s.setLatch p k).readMem a = s.readMem a := rfl
@[simp] theorem setLatch_ea (p : Bool) (k : Nibble) (n : Nat) : (s.setLatch p k).ea n = s.ea n := rfl
@[simp] theorem setLatch_key (p : Bool) (k : Nibble) (n : Nibble) : (s.setLatch p k).key n = s.key n := rfl
@[simp] theorem setLatch_fetchWord (p : Bool) (k : Nibble) : (s.setLatch p k).fetchWord = s.fetchWord := rfl
@[simp] theorem setLatch_canFetch (p : Bool) (k : Nibble) : (s.setLatch p k).canFetch = s.canFetch := rfl
@[simp] theorem setLatch_top (p : Bool) (k : Nibble) : (s.setLatch p k).top = s.top := rfl
@[simp] theorem setLatch_leastPressed (p : Bool) (k : Nibble) : (s.setLatch p k).leastPressed = s.leastPressed := rfl
@[simp] theorem setLatch_drawn (p : Bool) (k : Nibble) : (s.setLatch p k).drawn = s.drawn := rfl
@[simp] theorem setLatch_soundGate (p : Bool) (k : Nibble) : (s.setLatch p k).soundGate = s.soundGate := rfl

/-! ### setStatus -/

@[simp] theorem setStatus_v (t : Status) : (s.setStatus t).v = s.v := rfl
@[simp] theorem setStatus_i (t : Status) : (s.setStatus t).i = s.i := rfl
@[simp] theorem setStatus_pc (t : Status) : (s.setStatus t).pc = s.pc := rfl
@[simp] theorem setStatus_sp (t : Status) : (s.setStatus t).sp = s.sp := rfl
@[simp] theorem setStatus_stack (t : Status) : (s.setStatus t).stack = s.stack := rfl
@[simp] theorem setStatus_dt (t : Status) : (s.setStatus t).dt = s.dt := rfl
@[simp] theorem setStatus_st (t : Status) : (s.setStatus t).st = s.st := rfl
@[simp] theorem setStatus_mem (t : Status) : (s.setStatus t).mem = s.mem := rfl
@[simp] theorem setStatus_fb (t : Status) : (s.setStatus t).fb = s.fb := rfl
@[simp] theorem setStatus_keys (t : Status) : (s.setStatus t).keys = s.keys := rfl
@[simp] theorem setStatus_waitArmed (t : Status) : (s.setStatus t).waitArmed = s.waitArmed := rfl
@[simp] theorem setStatus_waitKey (t : Status) : (s.setStatus t).waitKey = s.waitKey := rfl
@[simp] theorem setStatus_status (t : Status) : (s.setStatus t).status = t := rfl
@[simp] theorem setStatus_cfg (t : Status) : (s.setStatus t).cfg = s.cfg := rfl
@[simp] theorem setStatus_rnd (t : Status) : (s.setStatus t).rnd = s.rnd := rfl
@[simp] theorem setStatus_draws (t : Status) : (s.setStatus t).draws = s.draws := rfl
@[simp] theorem setStatus_getV (t : Status) (y : Reg) : (s.setStatus t).getV y = s.getV y := rfl
@[simp] theorem setStatus_readMem (t : Status) (a : Nat) : (s.setStatus t).readMem a = s.readMem a := rfl
@[simp] theorem setStatus_ea (t : Status) (n : Nat) : (s.setStatus t).ea n = s.ea n := rfl
@[simp] theorem setStatus_key (t : Status) (n : Nibble) : (s.setStatus t).key n = s.key n := rfl
@[simp] theorem setStatus_fetchWord (t : Status) : (s.setStatus t).fetchWord = s.fetchWord := rfl
@[simp] theorem setStatus_canFetch (t : Status) : (s.setStatus t).canFetch = s.canFetch := rfl
@[simp] theorem setStatus_top (t : Status) : (s.setStatus t).top = s.top := rfl
@[simp] theorem setStatus_leastPressed (t : Status) : (s.setStatus t).leastPressed = s.leastPressed := rfl
@[simp] theorem setStatus_drawn (t : Status) : (s.setStatus t).drawn = s.drawn := rfl
@[simp] theorem setStatus_soundGate (t : Status) : (s.setStatus t).soundGate = s.soundGate := rfl

/-! ### useDraw -/

@[simp] theorem useDraw_v : (s.useDraw).v = s.v := rfl
@[simp] theorem useDraw_i : (s.useDraw).i = s.i := rfl
@[simp] theorem useDraw_pc : (s.useDraw).pc = s.pc := rfl
@[simp] theorem useDraw_sp : (s.useDraw).sp = s.sp := rfl
@[simp] theorem useDraw_stack : (s.useDraw).stack = s.stack := rfl
@[simp] theorem useDraw_dt : (s.useDraw).dt = s.dt := rfl
@[simp] theorem useDraw_st : (s.useDraw).st = s.st := rfl
@[simp] theorem useDraw_mem : (s.useDraw).mem = s.mem := rfl
@[simp] theorem useDraw_fb : (s.useDraw).fb = s.fb := rfl
@[simp] theorem useDraw_keys : (s.useDraw).keys = s.keys := rfl
@[simp] theorem useDraw_waitArmed : (s.useDraw).waitArmed = s.waitArmed := rfl
@[simp] theorem useDraw_waitKey : (s.useDraw).waitKey = s.waitKey := rfl
@[simp] theorem useDraw_status : (s.useDraw).status = s.status := rfl
@[simp] theorem useDraw_cfg : (s.useDraw).cfg = s.cfg := rfl
@[simp] theorem useDraw_rnd : (s.useDraw).rnd = none := rfl
@[simp] theorem useDraw_draws : (s.useDraw).draws = if s.rnd.isSome then s.draws else s.draws + 1 := rfl
@[simp] theorem useDraw_getV (y : Reg) : (s.useDraw).getV y = s.getV y := rfl
@[simp] theorem useDraw_readMem (a : Nat) : (s.useDraw).readMem a = s.readMem a := rfl
@[simp] theorem useDraw_ea (n : Nat) : (s.useDraw).ea n = s.ea n := rfl
@[simp] theorem useDraw_key (n : Nibble) : (s.useDraw).key n = s.key n := rfl
@[simp] theorem useDraw_fetchWord : (s.useDraw).fetchWord = s.fetchWord := rfl
@[simp] theorem useDraw_canFetch : (s.useDraw).canFetch = s.canFetch := rfl
@[simp] theorem useDraw_top : (s.useDraw).top = s.top := rfl
@[simp] theorem useDraw_leastPressed : (s.useDraw).leastPressed = s.leastPressed := rfl
@[simp] theorem useDraw_soundGate : (s.useDraw).soundGate = s.soundGate := rfl

/-! ### Composite updates as plain ones -/

@[simp] theorem advance_eq : s.advance = s.setPc (s.pc + 2#16) := rfl

@[simp] theorem skipIf_eq (c : Bool) : s.skipIf c = s.setPc (if c then s.pc + 4#16 else s.pc + 2#16) := by
  cases c <;> rfl

@[simp] theorem raise_eq (c : FaultCode) (w : Option Word) :
    s.raise c w = s.setStatus (.faulted c (some s.pc) w) := rfl

@[simp] theorem raiseAt_eq (c : FaultCode) (i : Instr) :
    s.raiseAt c i = s.setStatus (.faulted c (some s.pc) (some (encode i))) := rfl

@[simp] theorem setFlag_eq (c : Bool) : s.setFlag c = s.setV vf (if c then 1#8 else 0#8) := rfl

theorem setV_getV_self (x : Reg) : s.setV x (s.getV x) = s := by
  simp [State.setV, State.getV]

@[simp] theorem logicFlag_eq :
    s.logicFlag = s.setV vf (if s.cfg.quirkLogicClearsVf then 0#8 else s.getV vf) := by
  unfold State.logicFlag
  split
  · rfl
  · exact (setV_getV_self s vf).symm

@[simp] theorem advanceI_eq (x : Reg) :
    s.advanceI x = s.setI (if s.cfg.quirkLoadStoreAdvancesI
      then BitVec.ofNat 16 (s.i.toNat + x.toNat + 1) else s.i) := by
  unfold State.advanceI
  split <;> rfl

@[simp] theorem drop_eq :
    s.drop = s.setStack ⟨s.sp.val - 1, by have := s.sp.isLt; omega⟩ s.stack := rfl

/-! ### Registers: a read after a write -/

theorem getV_setV (x y : Reg) (b : Byte) : (s.setV x b).getV y = if x = y then b else s.getV y := by
  simp only [State.getV, State.setV, Vector.getElem_set, BitVec.toNat_inj]

@[simp] theorem getV_setV_self (x : Reg) (b : Byte) : (s.setV x b).getV x = b := by
  simp [getV_setV]

theorem getV_setV_of_ne {x y : Reg} (h : x ≠ y) (b : Byte) : (s.setV x b).getV y = s.getV y := by
  simp [getV_setV, h]

end Sys2Proof.Machine
end

