-- ==== Sys2Proof/Laws/Ops.lean ====
section
/-!
SUPPORT. One lemma for each shared operation that says what it does: jumps, the stack, the blocks at
`I`, the framebuffer, the key choice.
-/

namespace Sys2Proof.Machine

variable (s : State)

/-! ### Jumps and the stack -/

theorem jumpTo_of_lt {t : Nat} (h : t < 0x1000) (i : Instr) :
    s.jumpTo t i = s.setPc (BitVec.ofNat 16 t) := if_neg (by omega)

theorem jumpTo_of_ge {t : Nat} (h : 0x1000 ≤ t) (i : Instr) :
    s.jumpTo t i = s.raiseAt .targetOutOfRange i := if_pos h

/-- A 12-bit target never faults (R100, D33). -/
theorem jumpTo_nnn (nnn : Addr) (i : Instr) : s.jumpTo nnn.toNat i = s.setPc (nnn.setWidth 16) := by
  rw [jumpTo_of_lt s nnn.isLt, BitVec.ofNat_toNat]

theorem push_of_lt (h : s.sp.val < 16) (w : Word) (i : Instr) :
    s.push w i = s.setStack ⟨s.sp.val + 1, by omega⟩ (s.stack.set s.sp.val w h) := dif_pos h

theorem top_of_zero (h : s.sp.val = 0) : s.top = none := dif_neg (by omega)

theorem top_of_succ {j : Nat} (hj : j < 16) (h : s.sp.val = j + 1) : s.top = some s.stack[j] := by
  have h0 : 0 < s.sp.val := by omega
  unfold State.top
  rw [dif_pos h0]
  simp only [h, Nat.add_sub_cancel]

/-! ### Blocks at `I` -/

theorem ofNat_toNat_reg {k : Nat} (hk : k < 16) : (BitVec.ofNat 4 k).toNat = k := by
  simp only [BitVec.toNat_ofNat]
  omega

/-- Each byte after a block is stored: the register whose `EA` it lies at, or as before (R154). -/
theorem read_storeBlock {n : Nat} (hn : n ≤ 16) (a : Nat) :
    (∀ k, k < n → a = s.ea k → (s.storeBlock n).read a = s.getV (BitVec.ofNat 4 k)) ∧
    ((∀ k, k < n → a ≠ s.ea k) → (s.storeBlock n).read a = s.readMem a) := by
  induction n with
  | zero => exact ⟨fun k hk => absurd hk (by omega), fun _ => rfl⟩
  | succ n ih =>
    obtain ⟨ih1, ih2⟩ := ih (by omega)
    simp only [State.storeBlock, Memory.read_write]
    refine ⟨fun k hk ha => ?_, fun h => ?_⟩
    · by_cases hkn : k = n
      · subst hkn; simp [ha]
      · have hne : s.ea n ≠ a := ha ▸ ea_ne s (by omega) (by omega) (Ne.symm hkn)
        rw [if_neg hne]
        exact ih1 k (by omega) ha
    · rw [if_neg (h n (by omega)).symm]
      exact ih2 fun k hk => h k (by omega)

/-- A loaded block touches the registers alone. -/
theorem loadBlock_eq (n : Nat) : s.loadBlock n = { s with v := (s.loadBlock n).v } := by
  induction n with
  | zero => rfl
  | succ n ih => simp only [State.loadBlock, State.setV]; rw [ih]

/-- Each register after a block is loaded: the byte at its `EA`, or as before (R155). -/
theorem getV_loadBlock {n : Nat} (hn : n ≤ 16) (r : Reg) :
    (s.loadBlock n).getV r = if r.toNat < n then s.readMem (s.ea r.toNat) else s.getV r := by
  induction n with
  | zero => simp [State.loadBlock]
  | succ n ih =>
    simp only [State.loadBlock, getV_setV, ih (by omega)]
    by_cases h : BitVec.ofNat 4 n = r
    · have hr : r.toNat = n := by rw [← h, ofNat_toNat_reg (by omega)]
      simp [h, hr]
    · have hr : r.toNat ≠ n := fun e => h (by rw [← e, BitVec.ofNat_toNat, BitVec.setWidth_eq])
      by_cases hlt : r.toNat < n
      · simp [h, hlt, Nat.lt_succ_of_lt hlt]
      · have : ¬ r.toNat < n + 1 := by omega
        simp [h, hlt, this]

/-! ### The framebuffer -/

@[simp] theorem pixel_blank (y x : Nat) : Framebuffer.pixel Framebuffer.blank y x = false := by
  simp [Framebuffer.pixel, Framebuffer.blank]

/-- A pixel write changes the pixel it names, coordinates wrapped, and no other (R170). -/
theorem pixel_setPixel (fb : Framebuffer) (y x y' x' : Nat) (b : Bool) :
    (fb.setPixel y x b).pixel y' x' =
      if y % 32 = y' % 32 ∧ x % 64 = x' % 64 then b else fb.pixel y' x' := by
  simp only [Framebuffer.pixel, Framebuffer.setPixel, Vector.getElem_set]
  by_cases hy : y % 32 = y' % 32
  · by_cases hx : x % 64 = x' % 64
    · simp [hy, hx]
    · simp [hy, hx]
  · simp [hy]

/-- Framebuffers with the same pixels are equal. -/
theorem Framebuffer.ext_pixel {f g : Framebuffer}
    (h : ∀ y x, y < 32 → x < 64 → f.pixel y x = g.pixel y x) : f = g := by
  apply Vector.ext
  intro y hy
  apply Vector.ext
  intro x hx
  have := h y x hy hx
  simpa only [Framebuffer.pixel, Nat.mod_eq_of_lt hy, Nat.mod_eq_of_lt hx] using this

/-! ### The key choice of Fx0A -/

theorem leastPressed_of_none (h : ∀ k, s.key k = false) : s.leastPressed = none := by
  rw [State.leastPressed, List.find?_eq_none]
  intro k _
  simp [h k]

theorem leastPressed_eq_some {k : Nibble} (h : s.leastPressed = some k) :
    s.key k = true ∧ ∀ j : Nibble, j.toNat < k.toNat → s.key j = false := by
  rw [State.leastPressed, List.find?_eq_some_iff_getElem] at h
  obtain ⟨hk, i, hi, hik, hlt⟩ := h
  refine ⟨hk, fun j hj => ?_⟩
  simp only [List.length_map, List.length_range] at hi
  have hki : k.toNat = i := by
    rw [← hik]
    simp only [List.getElem_map, List.getElem_range, ofNat_toNat_reg hi]
  have := hlt j.toNat (by omega)
  simp only [List.getElem_map, List.getElem_range, BitVec.ofNat_toNat, BitVec.setWidth_eq] at this
  simpa using this

/-- The lowest pressed key is the one chosen (R186, D19). -/
theorem leastPressed_of_least {k : Nibble} (hk : s.key k = true)
    (hlt : ∀ j : Nibble, j.toNat < k.toNat → s.key j = false) : s.leastPressed = some k := by
  cases h : s.leastPressed with
  | none =>
    rw [State.leastPressed, List.find?_eq_none] at h
    have := h k (List.mem_map.2 ⟨k.toNat, List.mem_range.2 k.isLt, by simp⟩)
    exact absurd hk this
  | some j =>
    obtain ⟨hj, hjlt⟩ := leastPressed_eq_some s h
    rcases Nat.lt_trichotomy j.toNat k.toNat with h1 | h1 | h1
    · rw [hlt j h1] at hj; exact absurd hj (by decide)
    · rw [BitVec.eq_of_toNat_eq h1]
    · rw [hjlt k h1] at hk; exact absurd hk (by decide)

end Sys2Proof.Machine
end

