-- ==== Sys2Proof/Laws/PerInstr.lean ====
section
/-!
SUPPORT. One lemma per instruction, for the statements made of every instruction as syntax: the word of
each matches the row of R73's table that carries its mnemonic.
-/

namespace Sys2Proof.Laws.OpcodeRow

/-- The word of an instruction matches its own row of R73 ("a word matches when `w & mask = match`"). -/
def Statement (i : Instr) : Prop :=
  ∃ r ∈ opcodeTable, r.mnemonic = mnemonicOf i ∧ rowMatches r (encode i) = true

/-- A row of the table whose fixed bits an instruction's word has. -/
theorem of_row {i : Instr} (r : OpcodeRow) (hr : r ∈ opcodeTable) (hm : r.mnemonic = mnemonicOf i)
    (hw : encode i &&& r.mask = r.pattern) : Statement i :=
  ⟨r, hr, hm, beq_iff_eq.2 hw⟩

theorem nibble_and_ones (n : Nibble) : n &&& 0xF#4 = n := BitVec.and_allOnes

theorem byte_and_ones (b : Byte) : b &&& 0xFF#8 = b := BitVec.and_allOnes

theorem mask_nnn (o : Nibble) (a : Addr) : (o ++ a) &&& 0xF000#16 = o ++ 0x000#12 := by
  have : (0xF000#16) = 0xF#4 ++ 0x000#12 := by decide
  rw [this, BitVec.and_append]
  simp [nibble_and_ones]

theorem mask_xkk (o : Nibble) (x : Reg) (kk : Byte) :
    (o ++ x ++ kk) &&& 0xF000#16 = o ++ 0x0#4 ++ 0x00#8 := by
  have : (0xF000#16) = 0xF#4 ++ 0x0#4 ++ 0x00#8 := by decide
  rw [this, BitVec.and_append, BitVec.and_append]
  simp [nibble_and_ones]

theorem mask_xfn (o : Nibble) (x : Reg) (kk : Byte) :
    (o ++ x ++ kk) &&& 0xF0FF#16 = o ++ 0x0#4 ++ kk := by
  have : (0xF0FF#16) = 0xF#4 ++ 0x0#4 ++ 0xFF#8 := by decide
  rw [this, BitVec.and_append, BitVec.and_append]
  simp [nibble_and_ones, byte_and_ones]

theorem mask_xyf (o : Nibble) (x y : Reg) (n : Nibble) :
    (o ++ x ++ y ++ n) &&& 0xF00F#16 = o ++ 0x0#4 ++ 0x0#4 ++ n := by
  have : (0xF00F#16) = 0xF#4 ++ 0x0#4 ++ 0x0#4 ++ 0xF#4 := by decide
  rw [this, BitVec.and_append, BitVec.and_append, BitVec.and_append]
  simp [nibble_and_ones]

theorem mask_xyn (o : Nibble) (x y : Reg) (n : Nibble) :
    (o ++ x ++ y ++ n) &&& 0xF000#16 = o ++ 0x0#4 ++ 0x0#4 ++ 0x0#4 := by
  have : (0xF000#16) = 0xF#4 ++ 0x0#4 ++ 0x0#4 ++ 0x0#4 := by decide
  rw [this, BitVec.and_append, BitVec.and_append, BitVec.and_append]
  simp [nibble_and_ones]

theorem cls : Statement .cls :=
  of_row ⟨"CLS", 0x00E0, 0xFFFF⟩ (by decide) rfl (by decide)

theorem ret : Statement .ret :=
  of_row ⟨"RET", 0x00EE, 0xFFFF⟩ (by decide) rfl (by decide)

theorem jp (nnn : Addr) : Statement (.jp nnn) :=
  of_row ⟨"JP_nnn", 0x1000, 0xF000⟩ (by decide) rfl (mask_nnn 0x1#4 nnn)

theorem call (nnn : Addr) : Statement (.call nnn) :=
  of_row ⟨"CALL_nnn", 0x2000, 0xF000⟩ (by decide) rfl (mask_nnn 0x2#4 nnn)

theorem seImm (x : Reg) (kk : Byte) : Statement (.seImm x kk) :=
  of_row ⟨"SE_Vx__kk", 0x3000, 0xF000⟩ (by decide) rfl (mask_xkk 0x3#4 x kk)

theorem sneImm (x : Reg) (kk : Byte) : Statement (.sneImm x kk) :=
  of_row ⟨"SNE_Vx__kk", 0x4000, 0xF000⟩ (by decide) rfl (mask_xkk 0x4#4 x kk)

theorem seReg (x y : Reg) : Statement (.seReg x y) :=
  of_row ⟨"SE_Vx__Vy", 0x5000, 0xF00F⟩ (by decide) rfl (mask_xyf 0x5#4 x y 0x0#4)

theorem ldImm (x : Reg) (kk : Byte) : Statement (.ldImm x kk) :=
  of_row ⟨"LD_Vx__kk", 0x6000, 0xF000⟩ (by decide) rfl (mask_xkk 0x6#4 x kk)

theorem addImm (x : Reg) (kk : Byte) : Statement (.addImm x kk) :=
  of_row ⟨"ADD_Vx__kk", 0x7000, 0xF000⟩ (by decide) rfl (mask_xkk 0x7#4 x kk)

theorem ldReg (x y : Reg) : Statement (.ldReg x y) :=
  of_row ⟨"LD_Vx__Vy", 0x8000, 0xF00F⟩ (by decide) rfl (mask_xyf 0x8#4 x y 0x0#4)

theorem orReg (x y : Reg) : Statement (.orReg x y) :=
  of_row ⟨"OR_Vx__Vy", 0x8001, 0xF00F⟩ (by decide) rfl (mask_xyf 0x8#4 x y 0x1#4)

theorem andReg (x y : Reg) : Statement (.andReg x y) :=
  of_row ⟨"AND_Vx__Vy", 0x8002, 0xF00F⟩ (by decide) rfl (mask_xyf 0x8#4 x y 0x2#4)

theorem xorReg (x y : Reg) : Statement (.xorReg x y) :=
  of_row ⟨"XOR_Vx__Vy", 0x8003, 0xF00F⟩ (by decide) rfl (mask_xyf 0x8#4 x y 0x3#4)

theorem addReg (x y : Reg) : Statement (.addReg x y) :=
  of_row ⟨"ADD_Vx__Vy", 0x8004, 0xF00F⟩ (by decide) rfl (mask_xyf 0x8#4 x y 0x4#4)

theorem sub (x y : Reg) : Statement (.sub x y) :=
  of_row ⟨"SUB_Vx__Vy", 0x8005, 0xF00F⟩ (by decide) rfl (mask_xyf 0x8#4 x y 0x5#4)

theorem shr (x y : Reg) : Statement (.shr x y) :=
  of_row ⟨"SHR_Vx__Vy", 0x8006, 0xF00F⟩ (by decide) rfl (mask_xyf 0x8#4 x y 0x6#4)

theorem subn (x y : Reg) : Statement (.subn x y) :=
  of_row ⟨"SUBN_Vx__Vy", 0x8007, 0xF00F⟩ (by decide) rfl (mask_xyf 0x8#4 x y 0x7#4)

theorem shl (x y : Reg) : Statement (.shl x y) :=
  of_row ⟨"SHL_Vx__Vy", 0x800E, 0xF00F⟩ (by decide) rfl (mask_xyf 0x8#4 x y 0xE#4)

theorem sneReg (x y : Reg) : Statement (.sneReg x y) :=
  of_row ⟨"SNE_Vx__Vy", 0x9000, 0xF00F⟩ (by decide) rfl (mask_xyf 0x9#4 x y 0x0#4)

theorem ldI (nnn : Addr) : Statement (.ldI nnn) :=
  of_row ⟨"LD_I__nnn", 0xA000, 0xF000⟩ (by decide) rfl (mask_nnn 0xA#4 nnn)

theorem jpV0 (nnn : Addr) : Statement (.jpV0 nnn) :=
  of_row ⟨"JP_V0__nnn", 0xB000, 0xF000⟩ (by decide) rfl (mask_nnn 0xB#4 nnn)

theorem rnd (x : Reg) (kk : Byte) : Statement (.rnd x kk) :=
  of_row ⟨"RND_Vx__kk", 0xC000, 0xF000⟩ (by decide) rfl (mask_xkk 0xC#4 x kk)

theorem drw (x y : Reg) (n : Nibble) : Statement (.drw x y n) :=
  of_row ⟨"DRW_Vx__Vy__n", 0xD000, 0xF000⟩ (by decide) rfl (mask_xyn 0xD#4 x y n)

theorem skp (x : Reg) : Statement (.skp x) :=
  of_row ⟨"SKP_Vx", 0xE09E, 0xF0FF⟩ (by decide) rfl (mask_xfn 0xE#4 x 0x9E#8)

theorem sknp (x : Reg) : Statement (.sknp x) :=
  of_row ⟨"SKNP_Vx", 0xE0A1, 0xF0FF⟩ (by decide) rfl (mask_xfn 0xE#4 x 0xA1#8)

theorem ldVxDt (x : Reg) : Statement (.ldVxDt x) :=
  of_row ⟨"LD_Vx__DT", 0xF007, 0xF0FF⟩ (by decide) rfl (mask_xfn 0xF#4 x 0x07#8)

theorem ldVxK (x : Reg) : Statement (.ldVxK x) :=
  of_row ⟨"LD_Vx__K", 0xF00A, 0xF0FF⟩ (by decide) rfl (mask_xfn 0xF#4 x 0x0A#8)

theorem ldDtVx (x : Reg) : Statement (.ldDtVx x) :=
  of_row ⟨"LD_DT__Vx", 0xF015, 0xF0FF⟩ (by decide) rfl (mask_xfn 0xF#4 x 0x15#8)

theorem ldStVx (x : Reg) : Statement (.ldStVx x) :=
  of_row ⟨"LD_ST__Vx", 0xF018, 0xF0FF⟩ (by decide) rfl (mask_xfn 0xF#4 x 0x18#8)

theorem addI (x : Reg) : Statement (.addI x) :=
  of_row ⟨"ADD_I__Vx", 0xF01E, 0xF0FF⟩ (by decide) rfl (mask_xfn 0xF#4 x 0x1E#8)

theorem ldF (x : Reg) : Statement (.ldF x) :=
  of_row ⟨"LD_F__Vx", 0xF029, 0xF0FF⟩ (by decide) rfl (mask_xfn 0xF#4 x 0x29#8)

theorem ldB (x : Reg) : Statement (.ldB x) :=
  of_row ⟨"LD_B__Vx", 0xF033, 0xF0FF⟩ (by decide) rfl (mask_xfn 0xF#4 x 0x33#8)

theorem storeRegs (x : Reg) : Statement (.storeRegs x) :=
  of_row ⟨"LD__I___Vx", 0xF055, 0xF0FF⟩ (by decide) rfl (mask_xfn 0xF#4 x 0x55#8)

theorem loadRegs (x : Reg) : Statement (.loadRegs x) :=
  of_row ⟨"LD_Vx___I", 0xF065, 0xF0FF⟩ (by decide) rfl (mask_xfn 0xF#4 x 0x65#8)

end Sys2Proof.Laws.OpcodeRow
end

