-- ==== Sys2Proof/Laws/Step.lean ====
section
/-!
SUPPORT. What a step can do (R76), said once, and that a placed word is the one fetched.
-/

namespace Sys2Proof.Machine

/-- A step that answers a next state: the state was faulted and is unchanged, or the fetch faulted, or
the word was illegal, or the decoded instruction was executed (R76). -/
theorem step_cases {s t : State} (h : step s = .next t) :
    (s.status ≠ .running ∧ t = s) ∨
    (s.status = .running ∧ s.canFetch = false ∧ t = s.raise .fetchOutOfRange none) ∨
    (s.status = .running ∧ s.canFetch = true ∧ decodeWord s.fetchWord = none ∧
      t = s.raise .illegalOpcode (some s.fetchWord)) ∨
    (∃ i, s.status = .running ∧ s.canFetch = true ∧ decodeWord s.fetchWord = some i ∧
      exec i s = .next t) := by
  unfold step State.fetch at h
  cases hs : s.status with
  | faulted c a w =>
    simp only [hs, Host.Outcome.next.injEq] at h
    exact .inl ⟨nofun, h.symm⟩
  | running =>
    cases hc : s.canFetch with
    | false =>
      simp only [hs, hc, Bool.false_eq_true, if_false, Host.Outcome.next.injEq] at h
      exact .inr (.inl ⟨rfl, rfl, h.symm⟩)
    | true =>
      cases hd : decodeWord s.fetchWord with
      | none =>
        simp only [hs, hc, hd, if_true, Host.Outcome.next.injEq] at h
        exact .inr (.inr (.inl ⟨rfl, rfl, rfl, h.symm⟩))
      | some i =>
        simp only [hs, hc, hd, if_true] at h
        exact .inr (.inr (.inr ⟨i, rfl, rfl, rfl, h⟩))

theorem placeAt_toNat (s : State) : s.placeAt.toNat ≤ 0xFFE := by
  unfold State.placeAt
  split
  next h => simpa [State.canFetch] using h
  next => decide

/-- A placed word is the word the next step fetches, from an address it may fetch (R53). -/
theorem fetchWord_placeWord (s : State) (w : Word) : (s.placeWord w).fetchWord = w := by
  have h : s.placeAt.toNat + 1 ≠ s.placeAt.toNat := by omega
  simp only [State.fetchWord, State.readMem, State.placeWord, Memory.read_write]
  simp

theorem canFetch_placeWord (s : State) (w : Word) : (s.placeWord w).canFetch = true :=
  decide_eq_true (placeAt_toNat s)

/-- A word placed at `pc` is decoded and run by the next step (R76). -/
theorem step_placeWord (s : State) {w : Word} {i : Instr} (h : decodeWord w = some i) :
    step (s.placeWord w) = exec i (s.placeWord w) := by
  have hs : (s.placeWord w).status = .running := rfl
  simp only [step, State.fetch, hs, canFetch_placeWord, fetchWord_placeWord, h, if_true]

end Sys2Proof.Machine
end

