-- ==== Sys2Proof/Tests/Slice0.lean ====
section
/-!
SUPPORT. Tests. Expected values are those of spec/95_test_vectors.md (the vector is named in each
comment), of the rules' own examples, or worked by hand from R73's patterns. Last come the witnesses:
for each statement of Certificates/Slice0/Obligations.lean with hypotheses, states that meet them.
-/

namespace Sys2Proof.Tests

open Sys2Proof.Machine

/-! ### Helpers -/

/-- What a function reads from the state an outcome leads to. -/
def readOut {α : Type} (f : State → α) : Host.Outcome State Fault Refusal → Option α
  | .next t => some (f t)
  | .fault _ => none
  | .refused _ => none

/-- One step on a word placed at `pc`. -/
def on {α : Type} (s : State) (w : Nat) (f : State → α) : Option α :=
  readOut f (step (s.withFetchWord 16 w))

/-- The state after reset (R234). -/
def r0 : State := State.reset

/-- `r0` with two registers set. -/
def withRegs (x : Reg) (a : Byte) (y : Reg) (b : Byte) : State := (r0.setV x a).setV y b

/-- `r0` with quirk flags. -/
def withQuirks (shift logic adv : Bool) : State :=
  { r0 with cfg := { defaultConfig with
      quirkShiftUsesVy := shift, quirkLogicClearsVf := logic, quirkLoadStoreAdvancesI := adv } }

/-- `r0` with `I` and one byte of memory. -/
def withByte (i : Word) (a : Nat) (b : Byte) : State := (r0.setI i).setMem (r0.mem.write a b)

/-- The key vector with the listed keys pressed. -/
def pressed (ks : List Nat) : Vector Bool 16 := Vector.ofFn fun k => decide (k.val ∈ ks)

/-- The framebuffer with the listed pixels (row, column) set. -/
def lit (ps : List (Nat × Nat)) : Framebuffer :=
  ps.foldl (fun f p => f.setPixel p.1 p.2 true) Framebuffer.blank

/-! ### WellFormed -/

-- R75: no instruction term is ill-formed, the operands at the top of their ranges among them.
theorem test_wf_top_operands : (Instr.drw 15 15 15).wellFormed = true ∧
    (Instr.seImm 15 0xFF).wellFormed = true ∧ (Instr.jp 0xFFF).wellFormed = true := by decide

-- R215: an image of 3584 bytes fits, one of 3585 is ill-formed.
theorem test_wf_image : imageFits (List.replicate 3584 0) = true ∧
    imageFits (List.replicate 3585 0) = false := by
  simp only [imageFits, List.length_replicate]
  decide

/-! ### Decoding: each word is written out from R73's pattern of its row -/

theorem test_decode_fixed : decodeTableWord 16 0x00E0 = some .cls ∧
    decodeTableWord 16 0x00EE = some .ret := by decide

theorem test_decode_nnn : decodeTableWord 16 0x1234 = some (.jp 0x234) ∧
    decodeTableWord 16 0x2ABC = some (.call 0xABC) ∧ decodeTableWord 16 0xA7FE = some (.ldI 0x7FE) ∧
    decodeTableWord 16 0xB300 = some (.jpV0 0x300) := by decide

theorem test_decode_xkk : decodeTableWord 16 0x3342 = some (.seImm 3 0x42) ∧
    decodeTableWord 16 0x4F07 = some (.sneImm 15 7) ∧
    decodeTableWord 16 0x6A2F = some (.ldImm 10 0x2F) ∧
    decodeTableWord 16 0x7120 = some (.addImm 1 0x20) ∧
    decodeTableWord 16 0xC30F = some (.rnd 3 0x0F) := by decide

theorem test_decode_xy : decodeTableWord 16 0x5120 = some (.seReg 1 2) ∧
    decodeTableWord 16 0x9AB0 = some (.sneReg 10 11) ∧
    decodeTableWord 16 0xD125 = some (.drw 1 2 5) := by decide

theorem test_decode_alu : decodeTableWord 16 0x8120 = some (.ldReg 1 2) ∧
    decodeTableWord 16 0x8121 = some (.orReg 1 2) ∧ decodeTableWord 16 0x8122 = some (.andReg 1 2) ∧
    decodeTableWord 16 0x8123 = some (.xorReg 1 2) ∧ decodeTableWord 16 0x8124 = some (.addReg 1 2) ∧
    decodeTableWord 16 0x8125 = some (.sub 1 2) ∧ decodeTableWord 16 0x8126 = some (.shr 1 2) ∧
    decodeTableWord 16 0x8127 = some (.subn 1 2) ∧ decodeTableWord 16 0x812E = some (.shl 1 2) := by
  decide

theorem test_decode_keys : decodeTableWord 16 0xE59E = some (.skp 5) ∧
    decodeTableWord 16 0xE5A1 = some (.sknp 5) ∧ decodeTableWord 16 0xF30A = some (.ldVxK 3) := by
  decide

theorem test_decode_f : decodeTableWord 16 0xF307 = some (.ldVxDt 3) ∧
    decodeTableWord 16 0xF315 = some (.ldDtVx 3) ∧ decodeTableWord 16 0xF018 = some (.ldStVx 0) ∧
    decodeTableWord 16 0xF21E = some (.addI 2) ∧ decodeTableWord 16 0xF429 = some (.ldF 4) ∧
    decodeTableWord 16 0xF033 = some (.ldB 0) ∧ decodeTableWord 16 0xF255 = some (.storeRegs 2) ∧
    decodeTableWord 16 0xF265 = some (.loadRegs 2) := by decide

-- R74, vectors A5 to A11: the illegal words are refused by name.
theorem test_decode_illegal : decodeBytes [0x01, 0x23] = .error (.illegalOpcode 0x0123) ∧
    decodeBytes [0x00, 0x00] = .error (.illegalOpcode 0x0000) ∧
    decodeBytes [0x51, 0x21] = .error (.illegalOpcode 0x5121) ∧
    decodeBytes [0x91, 0x21] = .error (.illegalOpcode 0x9121) ∧
    decodeBytes [0x81, 0x28] = .error (.illegalOpcode 0x8128) ∧
    decodeBytes [0xE1, 0x9F] = .error (.illegalOpcode 0xE19F) ∧
    decodeBytes [0xF1, 0x30] = .error (.illegalOpcode 0xF130) ∧
    decodeBytes [0x12] = .error .truncated := by decide

-- R53: the byte at the lower address is the more significant.
theorem test_encode_bytes : encodeBytes (.jp 0x234) = [0x12, 0x34] ∧
    encodeBytes (.drw 1 2 5) = [0xD1, 0x25] := by decide

/-! ### Fetch and step -/

-- A1: a fetch at 0xFFF faults with no word.
theorem test_fetch_fff : readOut (fun t => (t.status, t.pc)) (step (r0.setPc 0xFFF)) =
    some (.faulted .fetchOutOfRange (some 0xFFF) none, 0xFFF) := by decide

-- A3: a fetch at 0xFFE is legal.
theorem test_fetch_ffe : on (r0.setPc 0xFFE) 0x1200 (fun t => (t.pc, t.status)) =
    some (0x200, .running) := by decide

-- A4: an odd pc fetches normally.
theorem test_fetch_odd : on (r0.setPc 0x201) 0x60AA (fun t => (t.getV 0, t.pc)) =
    some (0xAA, 0x203) := by decide

-- A6: an illegal word faults and leaves pc.
theorem test_illegal_step : on r0 0x0123 (fun t => (t.status, t.pc)) =
    some (.faulted .illegalOpcode (some 0x200) (some 0x0123), 0x200) := by decide

-- A12: a faulted state does not change.
theorem test_frozen : readOut (fun t => (t.pc, t.status)) (step (r0.raise .keyOutOfRange none)) =
    some (0x200, .faulted .keyOutOfRange (some 0x200) none) := by decide

-- A13: a store over the next word is what the next fetch reads.
theorem test_self_modify : on ((withRegs 0 0x12 1 0x02).setI 0x202) 0xF155
    (fun t => (t.pc, t.fetchWord)) = some (0x202, 0x1202) := by decide

/-! ### Control flow -/

-- F1, F2.
theorem test_ret : on ((r0.setStack 2 ((r0.stack.set 0 0x200).set 1 0x300)).setPc 0x400) 0x00EE
    (fun t => (t.sp, t.pc, t.stack[1])) = some (1, 0x302, 0x300) := by decide
theorem test_ret_empty : on r0 0x00EE (fun t => (t.status, t.pc)) =
    some (.faulted .stackUnderflow (some 0x200) (some 0x00EE), 0x200) := by decide

-- F3 and the example of R102.
theorem test_jp : on r0 0x1FFF (·.pc) = some 0xFFF ∧ on r0 0x1234 (·.pc) = some 0x234 := by decide

-- F5, F6.
theorem test_call : on ((r0.setStack 15 r0.stack).setPc 0x250) 0x2400
    (fun t => (t.stack[15], t.sp, t.pc)) = some (0x250, 16, 0x400) := by decide
theorem test_call_full : on ((r0.setStack 16 r0.stack).setPc 0x250) 0x2400
    (fun t => (t.status, t.sp, t.pc)) =
    some (.faulted .stackOverflow (some 0x250) (some 0x2400), 16, 0x250) := by decide

-- F7, F8, F9.
theorem test_seImm : on ((r0.setV 3 0x42).setPc 0xFFE) 0x3342 (·.pc) = some 0x1002 ∧
    on (r0.setV 3 0x42) 0x3343 (·.pc) = some 0x202 ∧
    on (r0.setV 15 7) 0x3F07 (·.pc) = some 0x204 := by decide

-- F10.
theorem test_sneImm : on (r0.setV 3 0x42) 0x4342 (·.pc) = some 0x202 ∧
    on (r0.setV 3 0x42) 0x4300 (·.pc) = some 0x204 := by decide

-- F11, F13.
theorem test_seReg : on (r0.setV 1 9) 0x5110 (·.pc) = some 0x204 ∧
    on (withRegs 1 7 2 8) 0x5120 (·.pc) = some 0x202 := by decide

-- F12, F13.
theorem test_sneReg : on (r0.setV 1 9) 0x9110 (·.pc) = some 0x202 ∧
    on (withRegs 1 7 2 8) 0x9120 (·.pc) = some 0x204 := by decide

-- F15, F17.
theorem test_jpV0 : on (withRegs 0 0x10 1 0x50) 0xB1FF (·.pc) = some 0x20F ∧
    on (r0.setV 0 0xFF) 0xBF00 (·.pc) = some 0xFFF := by decide
-- F18.
theorem test_jpV0_out : on (r0.setV 0 0xFF) 0xBF01 (fun t => (t.status, t.pc)) =
    some (.faulted .targetOutOfRange (some 0x200) (some 0xBF01), 0x200) := by decide

/-! ### Register loads, ALU and random -/

-- U1, U2.
theorem test_ldImm : on r0 0x6A2F (fun t => (t.getV 10, t.pc)) = some (0x2F, 0x202) ∧
    on (r0.setV 15 1) 0x6F00 (·.getV 15) = some 0 := by decide

-- U3, U4.
theorem test_addImm : on (withRegs 1 0xFF 15 5) 0x7101 (fun t => (t.getV 1, t.getV 15)) =
    some (0, 5) ∧ on (r0.setV 15 1) 0x7FFF (·.getV 15) = some 0 := by decide

-- U5.
theorem test_ldReg : on (r0.setV 2 0x33) 0x8120 (·.getV 1) = some 0x33 := by decide

-- U6, U8.
theorem test_orReg : on (withRegs 1 0x0F 2 0xF0 |>.setV 15 1) 0x8121
    (fun t => (t.getV 1, t.getV 15)) = some (0xFF, 0) ∧
    on (withRegs 0 0x0C 15 0x30) 0x8F01 (·.getV 15) = some 0 := by decide
-- U7, U9: QUIRK_LOGIC_CLEARS_VF = false.
theorem test_orReg_quirk :
    on (((withQuirks false false false).setV 1 0x0F).setV 2 0xF0 |>.setV 15 1) 0x8121
      (fun t => (t.getV 1, t.getV 15)) = some (0xFF, 1) ∧
    on (((withQuirks false false false).setV 0 0x0C).setV 15 0x30) 0x8F01 (·.getV 15) =
      some 0x3C := by decide

-- U10.
theorem test_andReg : on (withRegs 1 0x3C 2 0x0F) 0x8122 (fun t => (t.getV 1, t.getV 15)) =
    some (0x0C, 0) := by decide

-- U11 and the example of R126.
theorem test_xorReg : on (r0.setV 1 0x5A) 0x8113 (·.getV 1) = some 0 ∧
    on (withRegs 1 0xFF 2 0x0F) 0x8123 (·.getV 1) = some 0xF0 := by decide

-- L1-1, U12, U13.
theorem test_addReg : on (withRegs 1 0xFF 2 1) 0x8124 (fun t => (t.getV 1, t.getV 15)) =
    some (0, 1) ∧ on (withRegs 1 0x7F 2 0x80) 0x8124 (fun t => (t.getV 1, t.getV 15)) =
    some (0xFF, 0) := by decide
theorem test_addReg_vf : on (withRegs 1 0x80 15 0x80) 0x8F14 (·.getV 15) = some 1 ∧
    on (withRegs 1 0xFF 15 1) 0x81F4 (fun t => (t.getV 1, t.getV 15)) = some (0, 1) := by decide

-- L1-2, U15.
theorem test_sub : on (withRegs 1 5 2 7) 0x8125 (fun t => (t.getV 1, t.getV 15)) = some (0xFE, 0) ∧
    on (withRegs 1 5 2 5) 0x8125 (fun t => (t.getV 1, t.getV 15)) = some (0, 1) ∧
    on (withRegs 1 7 15 5) 0x8F15 (·.getV 15) = some 0 := by decide

-- U19, U21.
theorem test_shr : on (withRegs 1 3 2 0x80) 0x8126 (fun t => (t.getV 1, t.getV 15)) = some (1, 1) ∧
    on (r0.setV 15 2) 0x8FF6 (·.getV 15) = some 0 := by decide
-- U20: QUIRK_SHIFT_USES_VY = true.
theorem test_shr_quirk : on (((withQuirks true true false).setV 1 3).setV 2 0x80) 0x8126
    (fun t => (t.getV 1, t.getV 15)) = some (0x40, 0) := by decide

-- L1-2, U17.
theorem test_subn : on (withRegs 1 5 2 7) 0x8127 (fun t => (t.getV 1, t.getV 15)) = some (2, 1) ∧
    on (withRegs 1 7 2 5) 0x8127 (fun t => (t.getV 1, t.getV 15)) = some (0xFE, 0) := by decide

-- U22, U23, L1-3.
theorem test_shl : on (r0.setV 1 0x80) 0x810E (fun t => (t.getV 1, t.getV 15)) = some (0, 1) ∧
    on (r0.setV 15 0x81) 0x8FFE (·.getV 15) = some 1 ∧
    on (r0.setV 1 0x41) 0x810E (fun t => (t.getV 1, t.getV 15)) = some (0x82, 0) := by decide

-- U24, U26: the draw is the host's argument of Step.
theorem test_rnd : readOut (fun t => (t.getV 3, t.rnd)) ((r0.withFetchWord 16 0xC3F0).stepWith 0xAB) =
    some (0xA0, none) ∧
    readOut (·.getV 15) ((r0.withFetchWord 16 0xCFFF).stepWith 0xB7) = some 0xB7 := by decide
-- R132: with no host draw the value is free, and the draw is counted.
theorem test_rnd_free : on r0 0xC3F0 (·.draws) = some 1 ∧
    on r0 0xC3F0 (·.getV 3) = some (Config.freeDraw 0 &&& 0xF0) := ⟨by decide, rfl⟩

/-! ### Index register and memory transfer -/

-- I1.
theorem test_ldI : on r0 0xAFFF (fun t => (t.i, t.pc)) = some (0x0FFF, 0x202) := by decide

-- I2, I3.
theorem test_addI : on ((r0.setV 0 1).setI 0xFFFF) 0xF01E (fun t => (t.i, t.getV 15)) =
    some (0, 0) ∧ on ((r0.setV 0 2).setI 0x0FFF) 0xF01E (·.i) = some 0x1001 := by decide

-- I5, I6.
theorem test_ldF : on (r0.setV 4 0x0F) 0xF429 (·.i) = some 0x004B ∧
    on (r0.setV 4 0x1A) 0xF429 (·.i) = some 0x0032 := by decide

-- L1-8, I10.
theorem test_ldB : on ((r0.setV 0 0xFF).setI 0x300) 0xF033
    (fun t => (t.readMem 0x300, t.readMem 0x301, t.readMem 0x302, t.i)) = some (2, 5, 5, 0x300) ∧
    on ((r0.setV 0 0xFF).setI 0xFFF) 0xF033
    (fun t => (t.readMem 0xFFF, t.readMem 0, t.readMem 1)) = some (2, 5, 5) := by decide
-- I8: 100 has a one and two zeros.
theorem test_ldB_100 : on ((r0.setV 0 100).setI 0x300) 0xF033
    (fun t => (t.readMem 0x300, t.readMem 0x301, t.readMem 0x302)) = some (1, 0, 0) := by decide

-- I12, I13.
theorem test_storeRegs : on (((withRegs 0 1 1 2).setV 2 3).setI 0x300) 0xF255
    (fun t => (t.readMem 0x300, t.readMem 0x301, t.readMem 0x302, t.i)) = some (1, 2, 3, 0x300) := by
  decide
theorem test_storeRegs_quirk : on ((withQuirks false true true).setI 0x300) 0xF255 (·.i) =
    some 0x303 := by decide

-- I14: the font wraps in at I = 0x1000, VF last.
theorem test_loadRegs : on (r0.setI 0x1000) 0xFF65 (·.v.toList) =
    some [0xF0, 0x90, 0x90, 0x90, 0xF0, 0x20, 0x60, 0x20, 0x20, 0x70, 0xF0, 0x10, 0xF0, 0x80, 0xF0,
      0xF0] := by decide
-- I15.
theorem test_loadRegs_one : on ((withByte 0x300 0x300 0xAB).setV 1 9) 0xF065
    (fun t => (t.getV 0, t.getV 1, t.i)) = some (0xAB, 9, 0x300) := by decide

/-! ### Framebuffer -/

-- D1.
theorem test_cls : on (r0.setFb (lit [(3, 3), (31, 63)])) 0x00E0 (·.fb) =
    some Framebuffer.blank := by decide

-- D3: the column wraps and the row wraps.
theorem test_drw_wrap : on (((withRegs 0 0x41 1 31).setI 0x300).setMem
      ((r0.mem.write 0x300 0xC0).write 0x301 0x80)) 0xD012 (fun t => (t.fb, t.getV 15)) =
    some (lit [(31, 1), (31, 2), (0, 1)], 0) := by decide
-- D4: a collision.
theorem test_drw_collide : on (((r0.setI 0x300).setMem
      ((r0.mem.write 0x300 0xF0).write 0x301 0x90)).setFb (lit [(0, 1), (5, 5)])) 0xD012
      (fun t => (t.fb, t.getV 15)) =
    some (lit [(0, 0), (0, 2), (0, 3), (1, 0), (1, 3), (5, 5)], 1) := by decide

/-! ### Keys and timers -/

-- K1, K2.
theorem test_skp : on (((r0.setV 5 10).setPc 0x210).setKeys (pressed [10])) 0xE59E (·.pc) =
    some 0x214 ∧ on ((r0.setV 5 10).setPc 0x210) 0xE59E (·.pc) = some 0x212 := by decide
-- K4.
theorem test_skp_range : on ((r0.setV 5 16).setPc 0x210) 0xE59E (fun t => (t.status, t.pc)) =
    some (.faulted .keyOutOfRange (some 0x210) (some 0xE59E), 0x210) := by decide

-- K3, K4.
theorem test_sknp : on ((r0.setV 5 10).setPc 0x210) 0xE5A1 (·.pc) = some 0x214 := by decide
theorem test_sknp_range : on ((r0.setV 5 16).setPc 0x210) 0xE5A1 (·.status) =
    some (.faulted .keyOutOfRange (some 0x210) (some 0xE5A1)) := by decide

-- K6.
theorem test_ldVxDt : on (r0.setDt 0x3C) 0xF307 (·.getV 3) = some 0x3C := by decide

-- K7, its first row.
theorem test_ldDtVx : on (r0.setV 3 2) 0xF315 (fun t => (t.dt, t.tick.dt, t.tick.tick.tick.dt)) =
    some (2, 1, 0) := by decide

-- K8, K9.
theorem test_ldStVx : on (r0.setV 0 2) 0xF018 (fun t => (t.soundGate, t.tick.soundGate,
      t.tick.tick.soundGate)) = some (true, true, false) ∧
    on (r0.setSt 5) 0xF018 (fun t => (t.st, t.soundGate)) = some (0, false) := by decide

-- K10, step 1: the lowest key arms the latch and pc stays.
theorem test_ldVxK_arms : on (r0.setKeys (pressed [9, 4])) 0xF00A
    (fun t => (t.waitArmed, t.waitKey, t.pc)) = some (true, 4, 0x200) := by decide
-- K10, step 2: key 4 is released while key 9 is held.
theorem test_ldVxK_completes : on ((r0.setLatch true 4).setKeys (pressed [9])) 0xF00A
    (fun t => (t.getV 0, t.waitArmed, t.waitKey, t.pc)) = some (4, false, 0, 0x202) := by decide

/-! ### Reset and the host -/

-- R1 of L2-R.
theorem test_load : ((r0.load (some [0xA0, 0x00, 0xD0, 0x15])).fetchWord,
    (r0.load (some [0xA0, 0x00, 0xD0, 0x15])).readMem 1) = (0xA000, 0x90) := by
  decide +kernel

-- R4 and R5 of L2-R.
theorem test_load_missing : (r0.load none).status = .faulted .loadImageMissing none none ∧
    (r0.load (some [])).status = .running := by decide

-- K12: a tick does nothing after a fault.
theorem test_tick_frozen : ((r0.setDt 5).raise .illegalOpcode none).tick.dt = 5 := by decide

/-! ### Witnesses: states that meet the statements' hypotheses -/

/-- A running state with the word `00EE` at `pc`, one entry on the stack. -/
def callee : State := (r0.setStack 1 (r0.stack.set 0 0x200)).withFetchWord 16 0x00EE

/-- A state in the middle of an Fx0A wait on key 7. -/
def waiting : State :=
  ((r0.setLatch true 7).setKeys (pressed [7])).withFetchWord 16 0xF00A

/-- A faulted state. -/
def halted : State := r0.raise .illegalOpcode (some 0)

theorem witness_DecodeOfEncode : decodeWord (encode (.drw 15 0 15)) = some (.drw 15 0 15) := by decide

theorem witness_EncodeOfDecode : decodeWord 0xFF65 = some (.loadRegs 15) := by decide

theorem witness_PatternsDoNotOverlap : (⟨"RET", 0x00EE, 0xFFFF⟩ : OpcodeRow) ∈ opcodeTable ∧
    rowMatches ⟨"RET", 0x00EE, 0xFFFF⟩ 0x00EE = true := by decide

theorem witness_StepIsFetchDecodeExecute : halted.status ≠ .running ∧
    (r0.setPc 0xFFF).status = .running ∧ 0xFFE < (r0.setPc 0xFFF).pc.toNat ∧
    ((r0.setPc 0xFFE).pc.toNat ≤ 0xFFE ∧ decodeWord (r0.setPc 0xFFE).fetchWord = none) ∧
    (callee.status = .running ∧ callee.pc.toNat ≤ 0xFFE ∧
      decodeWord callee.fetchWord = some .ret) := by decide

theorem witness_StepRunsTheBytesAtPc : callee.status = .running ∧ callee.pc.toNat ≤ 0xFFE ∧
    decodeBytes [callee.readMem callee.pc.toNat, callee.readMem (callee.pc.toNat + 1)] =
      .ok (.ret, []) := by decide

-- One state for each execution fault of R201, at the edge of its range.
theorem witness_FaultingStepWritesStatusAlone :
    (r0.setPc 0xFFF).faultCause = some .fetchOutOfRange ∧
    r0.faultCause = some .illegalOpcode ∧
    ((r0.setV 0 1).withFetchWord 16 0xBFFF).faultCause = some .targetOutOfRange ∧
    (r0.withFetchWord 16 0x00EE).faultCause = some .stackUnderflow ∧
    ((r0.setStack 16 r0.stack).withFetchWord 16 0x2200).faultCause = some .stackOverflow ∧
    ((r0.setV 5 16).withFetchWord 16 0xE59E).faultCause = some .keyOutOfRange := by decide

theorem witness_NoCauseNoFault : callee.status = .running ∧ callee.faultCause = none ∧
    ((r0.setV 5 15).withFetchWord 16 0xE5A1).faultCause = none ∧
    (r0.withFetchWord 16 0xBFFF).faultCause = none := by decide

theorem witness_FaultedStateIsFrozen : halted.status ≠ .running ∧
    ([0x12, 0x00] : List Byte).length ≤ 3584 := by decide

theorem witness_IdleStepChangesNothing : (r0.withFetchWord 16 0x1200).Idle := by decide

theorem witness_StepKeepsInv : callee.Inv ∧ ∃ t, step callee = .next t := ⟨by decide, _, rfl⟩

theorem witness_HostOperationKeepsInv : callee.Inv ∧
    (∃ t, hostApply (.step 0) callee = .next t) ∧ (∃ t, hostApply (.reset none) callee = .next t) ∧
    (∃ t, hostApply .tick callee = .next t) := ⟨by decide, ⟨_, rfl⟩, ⟨_, rfl⟩, ⟨_, rfl⟩⟩

theorem witness_HostOperationKeepsWaitAtKey : waiting.WaitAtKey ∧ waiting.waitArmed = true ∧
    ∃ t, hostApply (.step 0) waiting = .next t :=
  ⟨fun _ => ⟨by decide, 0, by decide⟩, by decide, _, rfl⟩

theorem witness_RegisterFrame : (Instr.addReg 1 2).writesReg 3 = false ∧
    (Instr.loadRegs 14).writesReg 15 = false ∧ ∃ t, exec (.addReg 1 2) r0 = .next t :=
  ⟨by decide, by decide, _, rfl⟩

theorem witness_MemoryFrame : ¬ (Instr.storeRegs 0).storesTo r0 1 ∧
    ∃ t, exec (.storeRegs 0) r0 = .next t := by
  refine ⟨?_, _, rfl⟩
  rintro ⟨k, hk, h⟩
  have hk : k = 0 := Nat.le_zero.1 hk
  subst hk
  exact absurd h (by decide)

theorem witness_IndexFrame : (Instr.addImm 0 1).writesI = false ∧
    (∃ x, Instr.storeRegs 3 = .storeRegs x ∨ Instr.storeRegs 3 = .loadRegs x) ∧
    r0.cfg.quirkLoadStoreAdvancesI = false ∧ ∃ t, exec (.storeRegs 3) r0 = .next t :=
  ⟨rfl, ⟨3, .inl rfl⟩, rfl, _, rfl⟩

theorem witness_StackFrame : (Instr.jp 0).writesSp = false ∧
    (∃ t, exec (.jp 0) r0 = .next t) ∧ (∀ nnn, Instr.ret ≠ .call nnn) ∧
    (∃ t, exec .ret callee = .next t) ∧ (15 : Fin 16).val ≠ r0.sp.val :=
  ⟨rfl, ⟨_, rfl⟩, nofun, ⟨_, rfl⟩, by decide⟩

theorem witness_TimerFrame : (∀ x, Instr.ldStVx 0 ≠ .ldDtVx x) ∧ (∀ x, Instr.ldDtVx 0 ≠ .ldStVx x) ∧
    (∃ t, exec (.ldStVx 0) r0 = .next t) ∧ ∃ t, exec (.ldDtVx 0) r0 = .next t :=
  ⟨nofun, nofun, ⟨_, rfl⟩, _, rfl⟩

theorem witness_FramebufferFrame : (Instr.ldI 0).writesFb = false ∧
    ∃ t, exec (.ldI 0) r0 = .next t := ⟨rfl, _, rfl⟩

theorem witness_LatchFrame : (Instr.skp 0).isWait = false ∧ ∃ t, exec (.skp 0) waiting = .next t :=
  ⟨rfl, _, rfl⟩

theorem witness_StatusFrame : r0.operandFault .ret = some .stackUnderflow ∧
    callee.operandFault .ret = none ∧ (∃ t, exec .ret r0 = .next t) ∧
    ∃ t, exec .ret callee = .next t := ⟨by decide, by decide, ⟨_, rfl⟩, _, rfl⟩

theorem witness_InputFrame : (∀ x kk, Instr.cls ≠ .rnd x kk) ∧ ∃ t, exec .cls r0 = .next t :=
  ⟨nofun, _, rfl⟩

theorem witness_SequentialAdvance : (Instr.drw 0 1 5).isSequential = true := rfl

theorem witness_ReturnPopsTheStack : callee.sp.val = (0 : Fin 16).val + 1 ∧
    (r0.setStack 16 r0.stack).sp.val = (15 : Fin 16).val + 1 ∧ r0.sp.val = 0 := by decide

theorem witness_CallPushesItsAddress : r0.sp.val = (0 : Fin 16).val ∧
    (r0.setStack 15 r0.stack).sp.val = (15 : Fin 16).val ∧
    (r0.setStack 16 r0.stack).sp.val = 16 := by decide

theorem witness_CallThenReturn : r0.sp.val < 16 ∧ ∃ t, exec (.call 0x300) r0 = .next t ∧
    t.sp = t.sp ∧ t.stack = t.stack := ⟨by decide, _, rfl, rfl, rfl⟩

theorem witness_JumpWithOffset :
    (0xFFF : Addr).toNat + (r0.getV 0).toNat < 0x1000 ∧
    0x1000 ≤ (0xFFF : Addr).toNat + ((r0.setV 0 1).getV 0).toNat := by decide

theorem witness_RandomIsMasked : { r0 with rnd := some 0xB7 }.rnd = some 0xB7 ∧ r0.rnd = none ∧
    ∃ t, exec (.rnd 3 0xF0) r0 = .next t := ⟨rfl, rfl, _, rfl⟩

theorem witness_BcdStoresThreeDigits : 5 ≠ r0.ea 0 ∧ 5 ≠ r0.ea 1 ∧ 5 ≠ r0.ea 2 := by decide

theorem witness_StoreRegistersToMemory : (0 : Reg).toNat ≤ (0 : Reg).toNat ∧
    ∀ r : Reg, r.toNat ≤ (0 : Reg).toNat → 1 ≠ r0.ea r.toNat := by decide

theorem witness_LoadUndoesStore : ∃ t u : State, exec (.storeRegs 15) (r0.setI 0x300) = .next t ∧
    u.mem = t.mem ∧ u.i = (r0.setI 0x300).i ∧ (15 : Reg).toNat ≤ (15 : Reg).toNat :=
  ⟨_, _, rfl, rfl, rfl, by decide⟩

theorem witness_DoubleDrawRestores : ∃ t w : State, exec (.drw 0 1 5) r0 = .next t ∧
    (t.fb = t.fb ∧ t.mem = r0.mem ∧ t.i = r0.i) ∧
    (t.getV 0 = r0.getV 0 ∧ t.getV 1 = r0.getV 1) ∧ exec (.drw 0 1 5) t = .next w :=
  ⟨_, _, rfl, ⟨rfl, rfl, rfl⟩, ⟨rfl, rfl⟩, rfl⟩

theorem witness_KeySkips : (r0.getV 5).toNat = (0 : Fin 16).val ∧
    ((r0.setV 5 15).getV 5).toNat = (15 : Fin 16).val ∧ 15 < ((r0.setV 5 16).getV 5).toNat := by
  decide

theorem witness_WaitForKey : (r0.waitArmed = false ∧ ∀ k, r0.key k = false) ∧
    ((r0.setKeys (pressed [15])).key 15 = true ∧
      ∀ j : Nibble, j.toNat < 15 → (r0.setKeys (pressed [15])).key j = false) ∧
    (waiting.waitArmed = true ∧ waiting.key waiting.waitKey = true) ∧
    ((waiting.setKeys (pressed [2])).waitArmed = true ∧
      (waiting.setKeys (pressed [2])).key waiting.waitKey = false) := by decide

theorem witness_TickCountsDown : (r0.setDt 1).status = .running ∧ halted.status ≠ .running := by decide

theorem witness_SoundGateFollowsSoundTimer : (r0.setSt 1).status = .running ∧ ¬ 1 < (r0.setSt 1).st.toNat ∧
    1 < (r0.setSt 2).st.toNat := by decide

theorem witness_ResetLoadsTheImage : (List.replicate 3584 (0x12 : Byte)).length ≤ 3584 ∧
    ([] : List Byte).length ≤ 3584 := by
  rw [List.length_replicate]
  decide

theorem witness_LoadFaults : (none : Option (List Byte)) = none ∧
    ∃ bytes : List Byte, some bytes = some (List.replicate 3585 (0x12 : Byte)) ∧
      3584 < bytes.length := ⟨rfl, _, rfl, by rw [List.length_replicate]; decide⟩

theorem witness_HostOperations : (∃ t, step { r0 with rnd := some 1 } = .next t) ∧
    0xFFF < 0x1000 ∧ 0x1000 ≤ 0x1000 := ⟨⟨_, rfl⟩, by decide, by decide⟩

theorem witness_IndexedAddressesWrap : (15 < 16) ∧ (r0.setI 0xFFFF).ea 15 = (r0.setI 0xFFFF).ea 15 ∧
    (r0.setI 0xFFFF).ea 15 = 0x00E := by decide

end Sys2Proof.Tests
end

section
/-!
SUPPORT. What an instruction can do, said once (the "W by" column of spec/10_state.md R37): the
operand faults of R201, and else one of the updates listed in `Effect`.
-/

namespace Sys2Proof.Machine

/-! ### The conditional meanings, case by case -/

theorem exec_ret_of_succ {s : State} {j : Fin 16} (h : s.sp.val = j.val + 1) :
    exec .ret s = .next ((s.setStack j.castSucc s.stack).setPc (s.stack[j.val] + 2#16)) := by
  have hd : s.drop = s.setStack j.castSucc s.stack := by
    rw [drop_eq]
    congr 1
    exact Fin.ext (by simp [h])
  simp only [exec, execRet, top_of_succ s j.isLt h, hd]

theorem exec_call_of_lt {s : State} {j : Fin 16} (h : s.sp.val = j.val) (nnn : Addr) :
    exec (.call nnn) s =
      .next ((s.setStack j.succ (s.stack.set j.val s.pc)).setPc (nnn.setWidth 16)) := by
  have hn : ¬ 0x1000 ≤ nnn.toNat := by have := nnn.isLt; omega
  have hj : s.sp.val < 16 := h ▸ j.isLt
  have hp : s.push s.pc (.call nnn) = s.setStack j.succ (s.stack.set j.val s.pc) := by
    simp only [push_of_lt s hj, h]
    rfl
  simp only [exec, execCall, if_neg hn, if_neg (Nat.ne_of_lt hj), hp]

theorem exec_jpV0_of_lt {s : State} {nnn : Addr} (h : nnn.toNat + (s.getV 0#4).toNat < 0x1000) :
    exec (.jpV0 nnn) s = .next (s.setPc (BitVec.ofNat 16 (nnn.toNat + (s.getV 0#4).toNat))) := by
  simp only [exec, execJpV0, jumpTo_of_lt s h]

theorem exec_jp (s : State) (nnn : Addr) :
    exec (.jp nnn) s = .next (s.setPc (nnn.setWidth 16)) := by
  simp only [exec, execJp, jumpTo_nnn]

theorem exec_skp_of_le {s : State} {x : Reg} (h : ¬ 15 < (s.getV x).toNat) :
    exec (.skp x) s = .next (s.skipIf (s.key ((s.getV x).setWidth 4))) := if_neg h

theorem exec_sknp_of_le {s : State} {x : Reg} (h : ¬ 15 < (s.getV x).toNat) :
    exec (.sknp x) s = .next (s.skipIf (!s.key ((s.getV x).setWidth 4))) := if_neg h

/-- Where an instruction's operand check fails, its step is fault entry and nothing else (R201, R203). -/
theorem exec_of_operandFault {s : State} {i : Instr} {c : FaultCode}
    (h : s.operandFault i = some c) : exec i s = .next (s.raiseAt c i) := by
  cases i with
  | ret =>
    obtain ⟨h0, hc⟩ := Option.ite_none_right_eq_some.1 h
    cases hc
    simp only [exec, execRet, top_of_zero s h0]
  | call nnn =>
    obtain ⟨h16, hc⟩ := Option.ite_none_right_eq_some.1 h
    cases hc
    have hn : ¬ 0x1000 ≤ nnn.toNat := by have := nnn.isLt; omega
    simp only [exec, execCall, if_neg hn, if_pos h16]
  | jpV0 nnn =>
    obtain ⟨hge, hc⟩ := Option.ite_none_right_eq_some.1 h
    cases hc
    simp only [exec, execJpV0, jumpTo_of_ge s hge]
  | skp x =>
    obtain ⟨hk, hc⟩ := Option.ite_none_right_eq_some.1 h
    cases hc
    exact if_pos hk
  | sknp x =>
    obtain ⟨hk, hc⟩ := Option.ite_none_right_eq_some.1 h
    cases hc
    exact if_pos hk
  | _ => exact nomatch h

/-! ### Every effect of an instruction -/

/-- The effects of `Execute(i)` at `s`: fault entry, or an update of the fields that R37 lets the
instruction write. Instructions that write the registers alone, or `pc` alone, share a case. -/
inductive Effect (s : State) : Instr → State → Prop
  | fault {i : Instr} {c : FaultCode} (hc : s.operandFault i = some c) : Effect s i (s.raiseAt c i)
  /-- `pc` alone: a skip, or a jump to a target that exists (R77, R100). -/
  | jump {i : Instr} {p : Word} (hi : i.isSequential = false) (hw : i.isWait = false)
      (hp : p = s.pc + 2#16 ∨ p = s.pc + 4#16 ∨ p.toNat < 0x1000) : Effect s i (s.setPc p)
  | ret (j : Fin 16) (hj : s.sp.val = j.val + 1) :
      Effect s .ret ((s.setStack j.castSucc s.stack).setPc (s.stack[j.val] + 2#16))
  | call (nnn : Addr) (j : Fin 16) (hj : s.sp.val = j.val) :
      Effect s (.call nnn)
        ((s.setStack j.succ (s.stack.set j.val s.pc)).setPc (nnn.setWidth 16))
  /-- Registers alone: loads from a register, a timer or an immediate, and the ALU (R120). -/
  | regs {i : Instr} {v : Vector Byte 16} (hi : i.isSequential = true)
      (hv : ∀ r, i.writesReg r = false → ({ s with v := v } : State).getV r = s.getV r) :
      Effect s i { s with v := v, pc := s.pc + 2#16 }
  | rnd {x : Reg} {kk : Byte} : Effect s (.rnd x kk) (s.useDraw.setV x (s.drawn &&& kk)).advance
  | ldI {nnn : Addr} : Effect s (.ldI nnn) (s.setI (nnn.setWidth 16)).advance
  | addI {x : Reg} :
      Effect s (.addI x) (s.setI (BitVec.ofNat 16 (s.i.toNat + (s.getV x).toNat))).advance
  | ldF {x : Reg} :
      Effect s (.ldF x) (s.setI (BitVec.ofNat 16 (5 * (s.getV x &&& 0x0F).toNat))).advance
  | ldB {x : Reg} : Effect s (.ldB x) (s.setMem (s.bcdBlock (s.getV x))).advance
  | storeRegs {x : Reg} :
      Effect s (.storeRegs x)
        ((s.setMem (s.storeBlock (x.toNat + 1))).setI (s.advanceI x).i).advance
  | loadRegs (x : Reg) :
      Effect s (.loadRegs x)
        { s with v := (s.loadBlock (x.toNat + 1)).v, i := (s.advanceI x).i, pc := s.pc + 2#16 }
  | cls : Effect s .cls (s.setFb Framebuffer.blank).advance
  | drw {x y : Reg} {n : Nibble} {fb : Framebuffer} {b : Byte} :
      Effect s (.drw x y n) ((s.setFb fb).setV vf b).advance
  | ldDtVx {x : Reg} : Effect s (.ldDtVx x) (s.setDt (s.getV x)).advance
  | ldStVx {x : Reg} : Effect s (.ldStVx x) (s.setSt (s.getV x)).advance
  /-- Fx0A goes on waiting: no key is pressed yet, or the latched one is still held (R186). -/
  | keepWaiting {x : Reg} : Effect s (.ldVxK x) s
  | armLatch {x : Reg} {k : Nibble} : Effect s (.ldVxK x) (s.setLatch true k)
  | takeKey {x : Reg} :
      Effect s (.ldVxK x) ((s.setV x (s.waitKey.setWidth 8)).setLatch false 0).advance

theorem getV_setV_of_beq_false {s : State} {r x : Reg} {b : Byte} (h : (r == x) = false) :
    (s.setV x b).getV r = s.getV r :=
  getV_setV_of_ne s (Ne.symm (beq_eq_false_iff_ne.1 h)) b

/-- A result in `Vx` and then a value in `VF` leave the other registers (R21). -/
theorem getV_setV_setV_vf {s : State} {r x : Reg} {a b : Byte}
    (h : (r == x || r == vf) = false) : ((s.setV x a).setV vf b).getV r = s.getV r := by
  obtain ⟨hx, hf⟩ := Bool.or_eq_false_iff.1 h
  rw [getV_setV_of_beq_false hf, getV_setV_of_beq_false hx]

theorem effect_skipIf {s : State} {i : Instr} (hi : i.isSequential = false)
    (hw : i.isWait = false) (c : Bool) : Effect s i (s.skipIf c) := by
  rw [skipIf_eq]
  cases c
  · exact .jump hi hw (.inl rfl)
  · exact .jump hi hw (.inr (.inl rfl))

theorem effect_logicFlag {s : State} {i : Instr} {x : Reg} {a : Byte}
    (hi : i.isSequential = true) (hr : ∀ r, i.writesReg r = (r == x || r == vf)) :
    Effect s i (s.setV x a).logicFlag.advance := by
  rw [logicFlag_eq]
  exact .regs hi fun r h => getV_setV_setV_vf (hr r ▸ h)

theorem setMem_advanceI (s : State) (m : Memory) (x : Reg) :
    (s.setMem m).advanceI x = (s.setMem m).setI (s.advanceI x).i := by
  rw [advanceI_eq, advanceI_eq]
  rfl

theorem loadBlock_advanceI_advance (s : State) (n : Nat) (x : Reg) :
    ((s.loadBlock n).advanceI x).advance =
      { s with v := (s.loadBlock n).v, i := (s.advanceI x).i, pc := s.pc + 2#16 } := by
  rw [loadBlock_eq, advanceI_eq, advanceI_eq]
  rfl

theorem exec_ldVxK_effect (s : State) (x : Reg) :
    ∃ t, exec (.ldVxK x) s = .next t ∧ Effect s (.ldVxK x) t := by
  simp only [exec, execLdVxK]
  split
  · split
    · exact ⟨_, rfl, .keepWaiting⟩
    · exact ⟨_, rfl, .takeKey⟩
  · split
    · exact ⟨_, rfl, .armLatch⟩
    · exact ⟨_, rfl, .keepWaiting⟩

/-- Every instruction answers a next state, by one of the listed effects. -/
theorem exec_effect (i : Instr) (s : State) : ∃ t, exec i s = .next t ∧ Effect s i t := by
  cases hf : s.operandFault i with
  | some c => exact ⟨_, exec_of_operandFault hf, .fault hf⟩
  | none =>
    cases i with
    | cls => exact ⟨_, rfl, .cls⟩
    | ret =>
      have h0 : s.sp.val ≠ 0 := by simpa [State.operandFault] using hf
      have hj : s.sp.val = (⟨s.sp.val - 1, by omega⟩ : Fin 16).val + 1 := by simp only; omega
      exact ⟨_, exec_ret_of_succ hj, .ret _ hj⟩
    | jp nnn =>
      refine ⟨_, exec_jp s nnn, .jump rfl rfl (.inr (.inr ?_))⟩
      have := nnn.isLt
      simp only [BitVec.toNat_setWidth]
      omega
    | call nnn =>
      have h16 : s.sp.val ≠ 16 := by simpa [State.operandFault] using hf
      have hj : s.sp.val = (⟨s.sp.val, by omega⟩ : Fin 16).val := rfl
      exact ⟨_, exec_call_of_lt hj nnn, .call nnn _ hj⟩
    | jpV0 nnn =>
      have hlt : nnn.toNat + (s.getV 0#4).toNat < 0x1000 := by
        simpa [State.operandFault] using hf
      refine ⟨_, exec_jpV0_of_lt hlt, .jump rfl rfl (.inr (.inr ?_))⟩
      simp only [BitVec.toNat_ofNat]
      omega
    | skp x =>
      have hx : ¬ 15 < (s.getV x).toNat := by simpa [State.operandFault] using hf
      exact ⟨_, exec_skp_of_le hx, effect_skipIf rfl rfl _⟩
    | sknp x =>
      have hx : ¬ 15 < (s.getV x).toNat := by simpa [State.operandFault] using hf
      exact ⟨_, exec_sknp_of_le hx, effect_skipIf rfl rfl _⟩
    | seImm | sneImm | seReg | sneReg => exact ⟨_, rfl, effect_skipIf rfl rfl _⟩
    | ldImm | addImm | ldReg | ldVxDt =>
      exact ⟨_, rfl, .regs rfl fun _ hr => getV_setV_of_beq_false hr⟩
    | orReg | andReg | xorReg => exact ⟨_, rfl, effect_logicFlag rfl fun _ => rfl⟩
    | addReg | sub | shr | subn | shl => exact ⟨_, rfl, .regs rfl fun _ hr => getV_setV_setV_vf hr⟩
    | rnd => exact ⟨_, rfl, .rnd⟩
    | ldI => exact ⟨_, rfl, .ldI⟩
    | addI => exact ⟨_, rfl, .addI⟩
    | ldF => exact ⟨_, rfl, .ldF⟩
    | ldB => exact ⟨_, rfl, .ldB⟩
    | storeRegs x =>
      refine ⟨_, rfl, ?_⟩
      rw [setMem_advanceI]
      exact .storeRegs
    | loadRegs x => exact ⟨_, rfl, loadBlock_advanceI_advance s _ x ▸ .loadRegs x⟩
    | drw => exact ⟨_, rfl, .drw⟩
    | ldDtVx => exact ⟨_, rfl, .ldDtVx⟩
    | ldStVx => exact ⟨_, rfl, .ldStVx⟩
    | ldVxK x => exact exec_ldVxK_effect s x

/-- What a completed execution did: the inversion of `exec`. -/
theorem effect_of_exec {i : Instr} {s t : State} (h : exec i s = .next t) : Effect s i t := by
  obtain ⟨u, hu, he⟩ := exec_effect i s
  cases hu.symm.trans h
  exact he

end Sys2Proof.Machine
end

section
/-!
SUPPORT. Frames: what each instruction leaves unchanged (the "W by" column of spec/10_state.md R37).
Each goes through the effects of an instruction; only those that write the field need an argument.
-/

namespace Sys2Proof.Machine

/-- Settles O17: the effects that write a register are Fx65's block, a destination and a flag. -/
theorem registerFrame : Obligations.RegisterFrame := by
  intro i s t h r hr
  cases effect_of_exec h with
  | regs _ hv => exact hv r hr
  | rnd => exact getV_setV_of_beq_false hr
  | loadRegs x =>
    have hx : ¬ r.toNat < x.toNat + 1 := by simpa [Instr.writesReg, Nat.lt_succ_iff] using hr
    have hn : x.toNat + 1 ≤ 16 := x.isLt
    exact (getV_loadBlock s hn r).trans (if_neg hx)
  | drw => exact getV_setV_of_beq_false hr
  | takeKey => exact getV_setV_of_beq_false hr
  | _ => rfl

theorem advanceI_i_of_not_quirk {s : State} (h : s.cfg.quirkLoadStoreAdvancesI = false) (x : Reg) :
    (s.advanceI x).i = s.i := by
  simp [h]

/-- Settles O19: Fx55 and Fx65 write back the same `I` where the quirk is off. -/
theorem indexFrame : Obligations.IndexFrame := by
  intro i s t h hi
  cases effect_of_exec h with
  | ldI | addI | ldF => simp [Instr.writesI] at hi
  | storeRegs | loadRegs =>
    have hq : s.cfg.quirkLoadStoreAdvancesI = false := by simpa [Instr.writesI] using hi
    exact advanceI_i_of_not_quirk hq _
  | _ => rfl

/-- Settles O20: 00EE moves `SP` alone, and 2nnn writes the one entry at `STACK[SP]`. -/
theorem stackFrame : Obligations.StackFrame := by
  intro i s t h
  cases effect_of_exec h with
  | ret => exact ⟨nofun, fun _ => rfl, fun _ _ => rfl⟩
  | call _ j hj =>
    refine ⟨nofun, fun hi => absurd rfl (hi _), fun k hk => ?_⟩
    exact Vector.getElem_set_ne j.isLt k.isLt (hj ▸ hk.symm)
  | _ => exact ⟨fun _ => rfl, fun _ => rfl, fun _ _ => rfl⟩

/-- Settles O21: Fx15 and Fx18 have an effect each, and no other effect holds a timer. -/
theorem timerFrame : Obligations.TimerFrame := by
  intro i s t h
  cases effect_of_exec h with
  | ldDtVx => exact ⟨fun hi => absurd rfl (hi _), fun _ => rfl⟩
  | ldStVx => exact ⟨fun _ => rfl, fun hi => absurd rfl (hi _)⟩
  | _ => exact ⟨fun _ => rfl, fun _ => rfl⟩

/-- Settles O22: the two effects that hold a framebuffer are those of 00E0 and Dxyn. -/
theorem framebufferFrame : Obligations.FramebufferFrame := by
  intro i s t h hi
  cases effect_of_exec h with
  | cls | drw => exact nomatch hi
  | _ => rfl

/-- Settles O23: the two effects that write the latch are those of Fx0A. -/
theorem latchFrame : Obligations.LatchFrame := by
  intro i s t h hi
  cases effect_of_exec h with
  | armLatch | takeKey => exact nomatch hi
  | _ => exact ⟨rfl, rfl⟩

/-- Settles O24: of all effects fault entry alone writes `STATUS`, and it needs the operand fault. -/
theorem statusFrame : Obligations.StatusFrame := by
  intro i s t h
  constructor
  · intro hn
    cases effect_of_exec h with
    | fault hc => exact nomatch hn.symm.trans hc
    | _ => rfl
  · intro c hc
    exact Host.Outcome.next.inj (h.symm.trans (exec_of_operandFault hc))

/-- Settles O25: Cxkk alone uses a draw up, and no effect holds a key or a parameter. -/
theorem inputFrame : Obligations.InputFrame := by
  intro i s t h
  cases effect_of_exec h with
  | rnd => exact ⟨rfl, rfl, fun hi => absurd rfl (hi _ _)⟩
  | _ => exact ⟨rfl, rfl, fun _ => ⟨rfl, rfl⟩⟩

/-- Settles O52: a tick leaves `ST - 1`, which is not zero exactly where `ST` was above 1. -/
theorem soundGateFollowsSoundTimer : Obligations.SoundGateFollowsSoundTimer := by
  have gate : ∀ s : State, s.soundGate = true ↔ s.st ≠ 0 := fun s => bne_iff_ne
  intro s
  refine ⟨gate s, fun hs => ?_⟩
  have hst : s.tick.st = countDown s.st := by simp [State.tick, hs]
  have hz : countDown s.st = 0 ↔ (countDown s.st).toNat = 0 := BitVec.toNat_inj.symm
  rw [gate, hst, ne_eq, hz, countDown_toNat]
  omega

end Sys2Proof.Machine
end

section
/-!
SUPPORT. The two invariants between host operations: `State.Inv` (spec/10_state.md R34) and
`State.WaitAtKey` (R32, spec/70_reset_and_hazards.md R237).
-/

namespace Sys2Proof.Machine

/-! ### One conjunct at a time, over the effects of an instruction -/

/-- From an address that may be fetched, the next fetch is at most two instructions on (R77). -/
theorem toNat_add_le {w : Word} (h : w.toNat ≤ 0xFFE) {k : Nat} (hk : k ≤ 4) :
    (w + BitVec.ofNat 16 k).toNat ≤ 0x1002 := by
  simp only [BitVec.toNat_add, BitVec.toNat_ofNat]
  omega

theorem effect_pcInRange {s t : State} {i : Instr} (he : Effect s i t) (hf : s.pc.toNat ≤ 0xFFE)
    (hs : s.StackInRange) : t.PcInRange := by
  have here : s.pc.toNat ≤ 0x1002 := by omega
  cases he with
  | fault | keepWaiting | armLatch => exact here
  | jump _ _ hp =>
    rcases hp with rfl | rfl | hlt
    · exact toNat_add_le hf (k := 2) (by decide)
    · exact toNat_add_le hf (k := 4) (by decide)
    · exact Nat.le_of_lt (Nat.lt_trans hlt (by decide))
  | ret j hj => exact toNat_add_le (hs _ (hj ▸ Nat.lt_succ_self _)) (k := 2) (by decide)
  | call nnn _ _ =>
    have := nnn.isLt
    simp only [State.PcInRange, setPc_pc, BitVec.toNat_setWidth]
    omega
  | _ => exact toNat_add_le hf (k := 2) (by decide)

theorem effect_stackInRange {s t : State} {i : Instr} (he : Effect s i t) (hf : s.pc.toNat ≤ 0xFFE)
    (hs : s.StackInRange) : t.StackInRange := by
  cases he with
  | ret j hj => exact fun k hk => hs k (Nat.lt_trans hk (hj ▸ Nat.lt_succ_self _))
  | call _ j hj =>
    intro k hk
    simp only [setPc_stack, setStack_stack, Vector.getElem_set]
    split
    · exact hf
    next hne =>
      have : k.val < j.val + 1 := hk
      exact hs k (by omega)
  | _ => exact hs

theorem effect_latchClear {s t : State} {i : Instr} (he : Effect s i t) (hl : s.LatchClear) :
    t.LatchClear := by
  cases he with
  | armLatch => exact nofun
  | takeKey => exact fun _ => rfl
  | _ => exact hl

theorem effect_mem_wf {s t : State} {i : Instr} (he : Effect s i t)
    (hm : Memory.wf s.mem = true) : Memory.wf t.mem = true := by
  cases he with
  | ldB => exact wf_bcdBlock s _ hm
  | storeRegs => exact wf_storeBlock s _ hm
  | _ => exact hm

theorem exec_keeps_inv {s t : State} {i : Instr} (hc : s.canFetch = true) (hi : s.Inv)
    (h : exec i s = .next t) : t.Inv := by
  obtain ⟨_, hstack, hlatch, hmem⟩ := hi
  have hf : s.pc.toNat ≤ 0xFFE := of_decide_eq_true hc
  have he := effect_of_exec h
  exact ⟨effect_pcInRange he hf hstack, effect_stackInRange he hf hstack,
    effect_latchClear he hlatch, effect_mem_wf he hmem⟩

/-- Settles O14: a fault before execution writes `STATUS` alone, and every effect of an instruction
keeps each conjunct. -/
theorem stepKeepsInv : Obligations.StepKeepsInv := by
  intro s t hi h
  rcases step_cases h with ⟨_, rfl⟩ | ⟨_, _, rfl⟩ | ⟨_, _, _, rfl⟩ | ⟨i, _, hc, _, hx⟩
  · exact hi
  · exact hi
  · exact hi
  · exact exec_keeps_inv hc hi hx

/-! ### Reset and the other host operations -/

/-- Settles O13: no stack entry is in use, the latch is clear and memory lists nothing. -/
theorem resetMeetsTheInvariants : Obligations.ResetMeetsTheInvariants :=
  ⟨⟨by decide, nofun, fun _ => rfl, reset_mem_wf⟩, nofun⟩

theorem zeroed_mem_wf (s : State) : Memory.wf s.zeroed.mem = true :=
  Memory.wf_load (by simp) rfl

/-- Reset with any image meets the invariant: `pc`, stack and latch are those of `State.reset`, and an
image is written only where it fits (R215, R230-R233). -/
theorem load_inv (s : State) (image : Option (List Byte)) : (s.load image).Inv := by
  obtain ⟨⟨hpc, hstack, hlatch, _⟩, _⟩ := resetMeetsTheInvariants
  unfold State.load
  split
  · exact ⟨hpc, hstack, hlatch, zeroed_mem_wf s⟩
  · split
    next hfit =>
      have hlen := of_decide_eq_true hfit
      exact ⟨hpc, hstack, hlatch, Memory.wf_load (by omega) (zeroed_mem_wf s)⟩
    next => exact ⟨hpc, hstack, hlatch, zeroed_mem_wf s⟩

theorem load_waitArmed (s : State) (image : Option (List Byte)) :
    (s.load image).waitArmed = false := by
  unfold State.load
  split
  · rfl
  · split <;> rfl

/-- `Step(rnd)` is a step of the same state with the host's draw, which is gone afterwards (R210). -/
theorem stepWith_cases {s t : State} {b : Byte} (h : s.stepWith b = .next t) :
    ∃ u, step { s with rnd := some b } = .next u ∧ t = { u with rnd := none } := by
  unfold State.stepWith at h
  split at h
  next u hu => exact ⟨u, hu, (Host.Outcome.next.inj h).symm⟩
  next => cases h
  next => cases h

/-- A tick writes the timers alone (R208). -/
theorem tick_eq (s : State) : s.tick = { s with dt := s.tick.dt, st := s.tick.st } := by
  unfold State.tick
  split <;> rfl

/-- What a host operation answers: a reset, a step with the host's draw, or the same state but for keys
and timers (R210). -/
theorem hostApply_cases {op : HostOp} {s t : State} (h : hostApply op s = .next t) :
    (∃ image, t = s.load image) ∨
    (∃ b u, step { s with rnd := some b } = .next u ∧ t = { u with rnd := none }) ∨
    (∃ keys dt st, t = { s with keys := keys, dt := dt, st := st }) := by
  cases op with
  | reset image => exact .inl ⟨image, (Host.Outcome.next.inj h).symm⟩
  | step b => exact .inr (.inl ⟨b, stepWith_cases h⟩)
  | setKeys keys => exact .inr (.inr ⟨keys, s.dt, s.st, (Host.Outcome.next.inj h).symm⟩)
  | tick =>
    exact .inr (.inr ⟨s.keys, s.tick.dt, s.tick.st, (Host.Outcome.next.inj h).symm.trans (tick_eq s)⟩)
  | observe => exact .inr (.inr ⟨s.keys, s.dt, s.st, (Host.Outcome.next.inj h).symm⟩)
  | peek a =>
    simp only [hostApply] at h
    split at h
    · exact .inr (.inr ⟨s.keys, s.dt, s.st, (Host.Outcome.next.inj h).symm⟩)
    · cases h

/-- Settles O15: Reset makes the invariant, a step keeps it, and it reads neither keys, timers nor
the draw. -/
theorem hostOperationKeepsInv : Obligations.HostOperationKeepsInv := by
  intro op s t hi h
  rcases hostApply_cases h with ⟨image, rfl⟩ | ⟨b, u, hu, rfl⟩ | ⟨keys, dt, st, rfl⟩
  · exact load_inv s image
  · exact stepKeepsInv { s with rnd := some b } u hi hu
  · exact hi

/-! ### The wait latch -/

/-- An Fx0A that leaves the latch armed has changed at most the latch, so it is fetched again (R186). -/
theorem exec_ldVxK_keeps_fetch {s t : State} {x : Reg} (h : exec (.ldVxK x) s = .next t)
    (ht : t.waitArmed = true) : t.pc = s.pc ∧ t.mem = s.mem := by
  cases effect_of_exec h with
  | takeKey => exact nomatch ht
  | fault hc => exact nomatch hc
  | jump _ hw => exact nomatch hw
  | regs hi => exact nomatch hi
  | keepWaiting | armLatch => exact ⟨rfl, rfl⟩

/-- Only Fx0A writes the latch; while it is armed no other instruction is decoded. -/
theorem step_keeps_waitAtKey {s t : State} (hw : s.WaitAtKey) (h : step s = .next t) :
    t.WaitAtKey := by
  rcases step_cases h with ⟨_, rfl⟩ | ⟨_, _, rfl⟩ | ⟨_, _, _, rfl⟩ | ⟨i, _, hc, hd, hx⟩
  · exact hw
  · exact hw
  · exact hw
  · intro ht
    cases hi : i.isWait with
    | true =>
      obtain ⟨x, rfl⟩ : ∃ x, i = .ldVxK x := by
        cases i with
        | ldVxK x => exact ⟨x, rfl⟩
        | _ => exact nomatch hi
      obtain ⟨hpc, hmem⟩ := exec_ldVxK_keeps_fetch hx ht
      have hfetch : t.fetchWord = s.fetchWord := by
        simp only [State.fetchWord, State.readMem, hpc, hmem]
      exact ⟨by rw [State.canFetch, hpc]; exact hc, x, hfetch ▸ hd⟩
    | false =>
      have harmed : s.waitArmed = true := (latchFrame i s t hx hi).1 ▸ ht
      obtain ⟨_, x, hk⟩ := hw harmed
      cases hd.symm.trans hk
      exact nomatch hi

/-- Settles O16: Reset disarms the latch, a step keeps it at its Fx0A, and keys and timers are not read
by a fetch. -/
theorem hostOperationKeepsWaitAtKey : Obligations.HostOperationKeepsWaitAtKey := by
  intro op s t hw h
  rcases hostApply_cases h with ⟨image, rfl⟩ | ⟨b, u, hu, rfl⟩ | ⟨keys, dt, st, rfl⟩
  · exact fun ht => absurd ht (by simp [load_waitArmed])
  · exact step_keeps_waitAtKey (s := { s with rnd := some b }) (t := u) hw hu
  · exact hw

end Sys2Proof.Machine
end

section
/-!
SUPPORT. A word is decoded to the instruction it encodes (spec/30_encoding.md R71-R73), by the layout
of its operands; and a step that meets such a word runs that instruction (R76).
-/

namespace Sys2Proof

/-- The fields the decoder reads of an encoded word are the instruction's operands (R71-R73). The cases
go by the layout of the word, and then by the family whose function code tells its members apart. -/
theorem decodeWord_encode (i : Instr) : decodeWord (encode i) = some i := by
  cases i with
  | cls | ret => rfl
  | jp | call | ldI | jpV0 => simp [encode, decodeWord]
  | seImm | sneImm | ldImm | addImm | rnd => simp [encode, decodeWord]
  | seReg | sneReg | drw => simp [encode, decodeWord]
  | ldReg | orReg | andReg | xorReg | addReg | sub | shr | subn | shl =>
    simp [encode, decodeWord, decodeFamily8]
  | skp | sknp => simp [encode, decodeWord, decodeFamilyE]
  | ldVxDt | ldVxK | ldDtVx | ldStVx | addI | ldF | ldB | storeRegs | loadRegs =>
    simp [encode, decodeWord, decodeFamilyF]

end Sys2Proof

namespace Sys2Proof.Machine

/-- The last clause of R76: a word that decodes, where the step may fetch it, is executed. -/
theorem step_of_decodeWord {s : State} {i : Instr} (hs : s.status = .running)
    (hc : s.canFetch = true) (hd : decodeWord s.fetchWord = some i) : step s = exec i s := by
  simp only [step, State.fetch, hs, hc, hd, if_true]

end Sys2Proof.Machine
end

section
/-!
SUPPORT. Memory: indexed addresses, the fetch of an instruction's two bytes, and the bytes an
instruction leaves unchanged (spec/20_memory.md R52, R53, R56, R57).
-/

namespace Sys2Proof.Machine

/-- Settles O57: two addresses of one block differ by less than the 0x1000 they are taken modulo. -/
theorem indexedAddressesWrap : Obligations.IndexedAddressesWrap := by
  intro s j k
  refine ⟨ea_lt s k, by simp [State.ea], fun hj hk h => ?_⟩
  by_contra hne
  exact ea_ne s (by omega) (by omega) hne h

/-- Settles O7: the two bytes are those of the fetched word, and R76 executes what it decodes to. -/
theorem stepRunsTheBytesAtPc : Obligations.StepRunsTheBytesAtPc := by
  intro s i hs hpc hb
  obtain ⟨hd, _⟩ := decodeBytes_eq_ok.1 hb
  exact step_of_decodeWord hs (decide_eq_true hpc) hd

/-- Settles O58: the placed word is the one fetched, and it decodes to the instruction encoded. -/
theorem placedInstructionRuns : Obligations.PlacedInstructionRuns := by
  intro s i
  rw [State.withFetchWord, tableWord_toNat]
  exact step_placeWord s (decodeWord_encode i)

theorem read_bcdBlock_of_ne (s : State) (b : Byte) {a : Nat} (h : ∀ k, k < 3 → a ≠ s.ea k) :
    (s.bcdBlock b).read a = s.readMem a := by
  have hk : ∀ k, k < 3 → s.ea k ≠ a := fun k hk => (h k hk).symm
  rw [State.bcdBlock, Memory.read_write_of_ne _ (hk 2 (by decide)),
    Memory.read_write_of_ne _ (hk 1 (by decide)), Memory.read_write_of_ne _ (hk 0 (by decide))]
  rfl

/-- Settles O18: the two effects that hold a memory are Fx33's three digits and Fx55's block. -/
theorem memoryFrame : Obligations.MemoryFrame := by
  intro i s t h a ha
  cases effect_of_exec h with
  | ldB => exact read_bcdBlock_of_ne s _ fun k hk e => ha ⟨k, hk, e⟩
  | @storeRegs x =>
    exact (read_storeBlock s x.isLt a).2 fun k hk e => ha ⟨k, Nat.le_of_lt_succ hk, e⟩
  | _ => rfl

end Sys2Proof.Machine
end

section
/-!
SUPPORT. Encoding: a word that decodes is the word of its instruction, and the decoder is R73's table
(spec/30_encoding.md R71-R74).
-/

namespace Sys2Proof

/-- Settles O1, by running the decoder. -/
theorem sampleWordsDecode : Obligations.SampleWordsDecode := by
  unfold Obligations.SampleWordsDecode
  decide

/-- Settles O2: the bytes of an instruction make its word again, and that word decodes to it. -/
theorem decodeOfEncode : Obligations.DecodeOfEncode := by
  intro i
  refine ⟨decodeWord_encode i, fun rest => decodeBytes_eq_ok.2 ⟨?_, rfl⟩⟩
  rw [wordOfBytes_hi_lo]
  exact decodeWord_encode i

/-! ### A word from the fields that are fixed

The fixed fields are compared as numbers, as the decoder's own matches compare them. -/

section
variable {w : Word} {o n : Nibble} {kk : Byte}

theorem nnn_eq_word (ho : (opField w).toNat = o.toNat) : (o ++ nnnField w : Word) = w := by
  rw [← BitVec.eq_of_toNat_eq ho, word_eq_nnn]

theorem xkk_eq_word (ho : (opField w).toNat = o.toNat) :
    (o ++ xField w ++ kkField w : Word) = w := by
  rw [← BitVec.eq_of_toNat_eq ho, word_eq_xkk]

theorem xyn_eq_word (ho : (opField w).toNat = o.toNat) :
    (o ++ xField w ++ yField w ++ nField w : Word) = w := by
  rw [← BitVec.eq_of_toNat_eq ho, word_eq_xyn]

/-- The layout of the two rows with no operand. -/
theorem fixed_eq_word {a : Addr} (ho : (opField w).toNat = o.toNat)
    (ha : (nnnField w).toNat = a.toNat) : (o ++ a : Word) = w := by
  rw [← BitVec.eq_of_toNat_eq ha, nnn_eq_word ho]

/-- The layout of the rows whose function code is `kk`. -/
theorem xff_eq_word (ho : (opField w).toNat = o.toNat) (hk : (kkField w).toNat = kk.toNat) :
    (o ++ xField w ++ kk : Word) = w := by
  rw [← BitVec.eq_of_toNat_eq hk, xkk_eq_word ho]

/-- The layout of the rows whose function code is `n`. -/
theorem xyf_eq_word (ho : (opField w).toNat = o.toNat) (hn : (nField w).toNat = n.toNat) :
    (o ++ xField w ++ yField w ++ n : Word) = w := by
  rw [← BitVec.eq_of_toNat_eq hn, xyn_eq_word ho]

end

/-! ### Encode of decode, family by family -/

section
variable {w : Word} {i : Instr}

theorem encode_of_decodeFamily0 (ho : (opField w).toNat = 0x0) (h : decodeFamily0 w = some i) :
    encode i = w := by
  unfold decodeFamily0 at h
  split at h <;> cases h
  next hf => exact fixed_eq_word (o := 0x0#4) (a := 0x0E0#12) ho hf
  next hf => exact fixed_eq_word (o := 0x0#4) (a := 0x0EE#12) ho hf

theorem encode_of_decodeFamily8 (ho : (opField w).toNat = 0x8) (h : decodeFamily8 w = some i) :
    encode i = w := by
  unfold decodeFamily8 at h
  split at h <;> cases h
  all_goals next hf => exact xyf_eq_word ho hf

theorem encode_of_decodeFamilyE (ho : (opField w).toNat = 0xE) (h : decodeFamilyE w = some i) :
    encode i = w := by
  unfold decodeFamilyE at h
  split at h <;> cases h
  all_goals next hf => exact xff_eq_word ho hf

theorem encode_of_decodeFamilyF (ho : (opField w).toNat = 0xF) (h : decodeFamilyF w = some i) :
    encode i = w := by
  unfold decodeFamilyF at h
  split at h <;> cases h
  all_goals next hf => exact xff_eq_word ho hf

end

/-- Settles O3: the decoder compares the fields that a pattern fixes, and the operands are the others.
The cases are those of families 0 to F, in that order. -/
theorem encodeOfDecode : Obligations.EncodeOfDecode := by
  intro w i h
  unfold decodeWord at h
  split at h
  case h_1 ho => exact encode_of_decodeFamily0 ho h
  case h_2 ho | h_3 ho | h_11 ho | h_12 ho => cases h; exact nnn_eq_word ho
  case h_4 ho | h_5 ho | h_7 ho | h_8 ho | h_13 ho => cases h; exact xkk_eq_word ho
  case h_6 ho | h_10 ho =>
    obtain ⟨hn, ⟨⟩⟩ := Option.ite_none_right_eq_some.1 h
    exact xyf_eq_word ho (congrArg BitVec.toNat hn)
  case h_9 ho => exact encode_of_decodeFamily8 ho h
  case h_14 ho => cases h; exact xyn_eq_word ho
  case h_15 ho => exact encode_of_decodeFamilyE ho h
  case h_16 =>
    have ho : (opField w).toNat = 0xF := by
      have := (opField w).isLt
      simp only [imp_false] at *
      omega
    exact encode_of_decodeFamilyF ho h

/-! ### Decode of the table -/

section
variable {w p : Word}

theorem opField_and (a b : Word) : opField (a &&& b) = opField a &&& opField b :=
  BitVec.extractLsb'_and

theorem nField_and (a b : Word) : nField (a &&& b) = nField a &&& nField b :=
  BitVec.extractLsb'_and

theorem kkField_and (a b : Word) : kkField (a &&& b) = kkField a &&& kkField b :=
  BitVec.extractLsb'_and

/-- Every mask of R73 fixes the first nibble, and 0xF00F and 0xF0FF the function code besides. -/
theorem opField_of_mask {m : Word} (h : w &&& m = p) (hm : opField m = 0xF#4 := by decide) :
    (opField w).toNat = (opField p).toNat := by
  rw [← h, opField_and, hm, Laws.OpcodeRow.nibble_and_ones]

theorem nField_of_mask (h : w &&& 0xF00F#16 = p) : (nField w).toNat = (nField p).toNat := by
  have hm : nField 0xF00F#16 = 0xF#4 := by decide
  rw [← h, nField_and, hm, Laws.OpcodeRow.nibble_and_ones]

theorem kkField_of_mask (h : w &&& 0xF0FF#16 = p) : (kkField w).toNat = (kkField p).toNat := by
  have hm : kkField 0xF0FF#16 = 0xFF#8 := by decide
  rw [← h, kkField_and, hm, Laws.OpcodeRow.byte_and_ones]

end

/-- Every word that matches a row is the word of an instruction of that row: the converse of
`Laws.OpcodeRow.Statement`. -/
def OpcodeRow.Encodes (r : OpcodeRow) : Prop :=
  ∀ w, rowMatches r w = true → ∃ i, mnemonicOf i = r.mnemonic ∧ encode i = w

namespace OpcodeRow.Encodes

/-! One rule for each mask and layout: the operands are read off the word. -/

section
variable {name : String} {p : Word}

theorem fixed (i : Instr) (hm : mnemonicOf i = name := by rfl) (he : encode i = p := by rfl) :
    Encodes ⟨name, p, 0xFFFF⟩ := by
  intro w h
  have hw : w = p := (BitVec.and_allOnes (x := w)).symm.trans (beq_iff_eq.1 h)
  exact ⟨i, hm, he.trans hw.symm⟩

theorem nnn (f : Addr → Instr) (hm : ∀ a, mnemonicOf (f a) = name := by intros; rfl)
    (he : ∀ a, encode (f a) = opField p ++ a := by intros; rfl) : Encodes ⟨name, p, 0xF000⟩ := by
  intro w h
  have h : w &&& 0xF000#16 = p := beq_iff_eq.1 h
  exact ⟨_, hm _, (he _).trans (nnn_eq_word (opField_of_mask h))⟩

theorem xkk (f : Reg → Byte → Instr) (hm : ∀ x kk, mnemonicOf (f x kk) = name := by intros; rfl)
    (he : ∀ x kk, encode (f x kk) = opField p ++ x ++ kk := by intros; rfl) :
    Encodes ⟨name, p, 0xF000⟩ := by
  intro w h
  have h : w &&& 0xF000#16 = p := beq_iff_eq.1 h
  exact ⟨_, hm _ _, (he _ _).trans (xkk_eq_word (opField_of_mask h))⟩

theorem xyn (f : Reg → Reg → Nibble → Instr)
    (hm : ∀ x y n, mnemonicOf (f x y n) = name := by intros; rfl)
    (he : ∀ x y n, encode (f x y n) = opField p ++ x ++ y ++ n := by intros; rfl) :
    Encodes ⟨name, p, 0xF000⟩ := by
  intro w h
  have h : w &&& 0xF000#16 = p := beq_iff_eq.1 h
  exact ⟨_, hm _ _ _, (he _ _ _).trans (xyn_eq_word (opField_of_mask h))⟩

theorem xyf (f : Reg → Reg → Instr) (hm : ∀ x y, mnemonicOf (f x y) = name := by intros; rfl)
    (he : ∀ x y, encode (f x y) = opField p ++ x ++ y ++ nField p := by intros; rfl) :
    Encodes ⟨name, p, 0xF00F⟩ := by
  intro w h
  have h : w &&& 0xF00F#16 = p := beq_iff_eq.1 h
  exact ⟨_, hm _ _, (he _ _).trans (xyf_eq_word (opField_of_mask h) (nField_of_mask h))⟩

theorem xff (f : Reg → Instr) (hm : ∀ x, mnemonicOf (f x) = name := by intros; rfl)
    (he : ∀ x, encode (f x) = opField p ++ x ++ kkField p := by intros; rfl) :
    Encodes ⟨name, p, 0xF0FF⟩ := by
  intro w h
  have h : w &&& 0xF0FF#16 = p := beq_iff_eq.1 h
  exact ⟨_, hm _, (he _).trans (xff_eq_word (opField_of_mask h) (kkField_of_mask h))⟩

end

theorem of_mem_low : ∀ r ∈ opcodeRowsLow, r.Encodes := by
  simp only [opcodeRowsLow, List.forall_mem_cons]
  exact ⟨fixed .cls, fixed .ret, nnn .jp, nnn .call, xkk .seImm, xkk .sneImm, xyf .seReg,
    xkk .ldImm, xkk .addImm, nofun⟩

theorem of_mem_mid : ∀ r ∈ opcodeRowsMid, r.Encodes := by
  simp only [opcodeRowsMid, List.forall_mem_cons]
  exact ⟨xyf .ldReg, xyf .orReg, xyf .andReg, xyf .xorReg, xyf .addReg, xyf .sub, xyf .shr,
    xyf .subn, xyf .shl, xyf .sneReg, nnn .ldI, nnn .jpV0, xkk .rnd, xyn .drw, nofun⟩

theorem of_mem_high : ∀ r ∈ opcodeRowsHigh, r.Encodes := by
  simp only [opcodeRowsHigh, List.forall_mem_cons]
  exact ⟨xff .skp, xff .sknp, xff .ldVxDt, xff .ldVxK, xff .ldDtVx, xff .ldStVx, xff .addI,
    xff .ldF, xff .ldB, xff .storeRegs, xff .loadRegs, nofun⟩

theorem of_mem {r : OpcodeRow} (hr : r ∈ opcodeTable) : r.Encodes := by
  rcases List.mem_append.1 hr with hr | hr
  · rcases List.mem_append.1 hr with hr | hr
    · exact of_mem_low r hr
    · exact of_mem_mid r hr
  · exact of_mem_high r hr

end OpcodeRow.Encodes

/-- Each instruction has its row: the lemmas of `Laws.OpcodeRow` put together. -/
theorem Laws.opcodeRow_of_instr : ∀ i, OpcodeRow.Statement i
  | .cls => OpcodeRow.cls
  | .ret => OpcodeRow.ret
  | .jp a => OpcodeRow.jp a
  | .call a => OpcodeRow.call a
  | .seImm x kk => OpcodeRow.seImm x kk
  | .sneImm x kk => OpcodeRow.sneImm x kk
  | .seReg x y => OpcodeRow.seReg x y
  | .ldImm x kk => OpcodeRow.ldImm x kk
  | .addImm x kk => OpcodeRow.addImm x kk
  | .ldReg x y => OpcodeRow.ldReg x y
  | .orReg x y => OpcodeRow.orReg x y
  | .andReg x y => OpcodeRow.andReg x y
  | .xorReg x y => OpcodeRow.xorReg x y
  | .addReg x y => OpcodeRow.addReg x y
  | .sub x y => OpcodeRow.sub x y
  | .shr x y => OpcodeRow.shr x y
  | .subn x y => OpcodeRow.subn x y
  | .shl x y => OpcodeRow.shl x y
  | .sneReg x y => OpcodeRow.sneReg x y
  | .ldI a => OpcodeRow.ldI a
  | .jpV0 a => OpcodeRow.jpV0 a
  | .rnd x kk => OpcodeRow.rnd x kk
  | .drw x y n => OpcodeRow.drw x y n
  | .skp x => OpcodeRow.skp x
  | .sknp x => OpcodeRow.sknp x
  | .ldVxDt x => OpcodeRow.ldVxDt x
  | .ldVxK x => OpcodeRow.ldVxK x
  | .ldDtVx x => OpcodeRow.ldDtVx x
  | .ldStVx x => OpcodeRow.ldStVx x
  | .addI x => OpcodeRow.addI x
  | .ldF x => OpcodeRow.ldF x
  | .ldB x => OpcodeRow.ldB x
  | .storeRegs x => OpcodeRow.storeRegs x
  | .loadRegs x => OpcodeRow.loadRegs x

/-- Settles O4: the first row that matches holds an instruction with the word `w`, which is then the one
decoded; and an instruction decoded where no row matches would have `w` as its word, and so a row. -/
theorem decodeIsTheTable : Obligations.DecodeIsTheTable := by
  intro w
  cases hf : opcodeTable.find? fun r => rowMatches r w with
  | some r =>
    obtain ⟨i, hm, rfl⟩ :=
      OpcodeRow.Encodes.of_mem (List.mem_of_find?_eq_some hf) w
        (List.find?_some (p := fun r => rowMatches r w) hf)
    simp [decodeWord_encode, hm]
  | none =>
    cases hd : decodeWord w with
    | none => rfl
    | some i =>
      obtain ⟨r, hr, _, hw⟩ := Laws.opcodeRow_of_instr i
      rw [encodeOfDecode w i hd] at hw
      exact absurd hw (List.find?_eq_none.1 hf r hr)

/-- What two rows fix in common tells any two of them apart. -/
theorem eq_of_masked_patterns_eq : ∀ r ∈ opcodeTable, ∀ r' ∈ opcodeTable,
    r.pattern &&& r'.mask = r'.pattern &&& r.mask → r = r' := by
  decide

/-- Settles O5: a word that matches both rows carries both patterns where both masks are set. -/
theorem patternsDoNotOverlap : Obligations.PatternsDoNotOverlap := by
  intro w r r' hr hr' hw hw'
  apply eq_of_masked_patterns_eq r hr r' hr'
  rw [← beq_iff_eq.1 hw, ← beq_iff_eq.1 hw']
  ac_rfl

end Sys2Proof
end

section
/-!
SUPPORT. The step of R76, clause by clause, and the advance of `pc` (spec/30_encoding.md R76, R77).
-/

namespace Sys2Proof.Machine

theorem step_of_not_running {s : State} (hs : s.status ≠ .running) : step s = .next s := by
  cases hst : s.status with
  | running => exact absurd hst hs
  | faulted => simp only [step, State.fetch, hst]

theorem step_of_not_canFetch {s : State} (hs : s.status = .running) (hc : s.canFetch = false) :
    step s = .next (s.raise .fetchOutOfRange none) := by
  simp only [step, State.fetch, hs, hc, Bool.false_eq_true, if_false]

theorem step_of_illegal {s : State} (hs : s.status = .running) (hc : s.canFetch = true)
    (hd : decodeWord s.fetchWord = none) :
    step s = .next (s.raise .illegalOpcode (some s.fetchWord)) := by
  simp only [step, State.fetch, hs, hc, hd, if_true]

/-- Settles O6: `State.fetch` has one outcome for each clause of R76, and fault entry writes `STATUS`
alone. -/
theorem stepIsFetchDecodeExecute : Obligations.StepIsFetchDecodeExecute := by
  intro s
  refine ⟨step_of_not_running, fun hs hpc => ?_, fun hs hpc hd => ?_, fun i hs hpc hd => ?_⟩
  · exact step_of_not_canFetch hs (decide_eq_false (Nat.not_le.2 hpc))
  · exact step_of_illegal hs (decide_eq_true hpc) hd
  · exact step_of_decodeWord hs (decide_eq_true hpc) hd

/-- Settles O8: the fetch ends the step in a state, or gives an instruction, which answers one. -/
theorem everyStepAnswersNext : Obligations.EveryStepAnswersNext := by
  intro s
  unfold step
  split
  next t _ => exact ⟨t, rfl⟩
  next i _ =>
    obtain ⟨t, ht, _⟩ := exec_effect i s
    exact ⟨t, ht⟩

/-- The instructions with an operand check (R201) are among those that assign `pc`. -/
theorem operandFault_of_isSequential {i : Instr} (s : State) (hi : i.isSequential = true) :
    s.operandFault i = none := by
  cases i with
  | ret | call | jpV0 | skp | sknp => exact nomatch hi
  | _ => rfl

/-- Settles O26: the effects left to a sequential instruction all end in `advance`. -/
theorem sequentialAdvance : Obligations.SequentialAdvance := by
  intro i s hi
  obtain ⟨t, ht, he⟩ := exec_effect i s
  refine ⟨t, ht, ?_⟩
  cases he with
  | fault hc => exact nomatch (operandFault_of_isSequential s hi).symm.trans hc
  | jump hn => exact nomatch hi.symm.trans hn
  | ret | call | keepWaiting | armLatch | takeKey => exact nomatch hi
  | _ => rfl

end Sys2Proof.Machine
end

section
/-!
SUPPORT. Control flow: the return, the jumps, the call and the skips (spec/40_control_flow.md R100-R108).
-/

namespace Sys2Proof.Machine

/-- Settles O27: an entry on the stack is what `State.top` reads, and without one RET's operand check
fails. -/
theorem returnPopsTheStack : Obligations.ReturnPopsTheStack :=
  ⟨decodeWord_encode .ret, fun _ _ h => exec_ret_of_succ h,
    fun _ h => exec_of_operandFault (i := .ret) (if_pos h)⟩

/-- Settles O28: a 12-bit target always exists. -/
theorem jumpSetsPc : Obligations.JumpSetsPc :=
  fun s nnn => ⟨decodeWord_encode (.jp nnn), exec_jp s nnn⟩

/-- Settles O29: with room on the stack the call pushes its own address, and with none its operand
check fails. -/
theorem callPushesItsAddress : Obligations.CallPushesItsAddress :=
  fun _ nnn => ⟨decodeWord_encode (.call nnn), fun _ h => exec_call_of_lt h nnn,
    fun h => exec_of_operandFault (i := .call nnn) (if_pos h)⟩

/-- The return at a state whose top entry is one that a call pushed at index `j` (R101, R103). -/
theorem exec_ret_of_pushed {u : State} {k : Vector Word 16} {j : Fin 16} {a : Word}
    (hsp : u.sp = j.succ) (hk : u.stack = k.set j.val a) :
    exec .ret u = .next ((u.setStack j.castSucc u.stack).setPc (a + 2#16)) := by
  have htop : u.stack[j.val] = a := by
    simp only [hk, Vector.getElem_set_self]
  rw [exec_ret_of_succ (congrArg Fin.val hsp), htop]

/-- Settles O30: the call leaves its own address at the index that the return's decrement of `SP`
comes back to. -/
theorem callThenReturn : Obligations.CallThenReturn := by
  intro s t u nnn hroom hcall hsp hstack
  obtain ⟨j, hj⟩ : ∃ j : Fin 16, s.sp.val = j.val := ⟨⟨s.sp.val, hroom⟩, rfl⟩
  cases (exec_call_of_lt hj nnn).symm.trans hcall
  rw [setPc_sp, setStack_sp] at hsp
  rw [setPc_stack, setStack_stack] at hstack
  exact ⟨_, exec_ret_of_pushed hsp hstack, rfl, Fin.ext hj.symm⟩

/-- The two targets of a skip (R104-R107), its condition told as a proposition. -/
theorem skipIf_of_iff (s : State) {c : Bool} {p : Prop} [Decidable p] (h : c = true ↔ p) :
    s.skipIf c = { s with pc := if p then s.pc + 4#16 else s.pc + 2#16 } := by
  rw [skipIf_eq, if_congr h rfl rfl]
  rfl

/-- Settles O31: each skip's Boolean comparison decides the condition the rule names. -/
theorem skipsCompareForEquality : Obligations.SkipsCompareForEquality := by
  intro s x y kk
  refine ⟨⟨decodeWord_encode (.seImm x kk), ?_⟩, ⟨decodeWord_encode (.sneImm x kk), ?_⟩,
    ⟨decodeWord_encode (.seReg x y), ?_⟩, ⟨decodeWord_encode (.sneReg x y), ?_⟩⟩
  · exact congrArg Host.Outcome.next (skipIf_of_iff s beq_iff_eq)
  · exact congrArg Host.Outcome.next (skipIf_of_iff s bne_iff_ne)
  · exact congrArg Host.Outcome.next (skipIf_of_iff s beq_iff_eq)
  · exact congrArg Host.Outcome.next (skipIf_of_iff s bne_iff_ne)

/-- Settles O32: below 0x1000 the sum in 16 bits is the sum of the numbers, and from there on the
operand check fails. -/
theorem jumpWithOffset : Obligations.JumpWithOffset := by
  intro s nnn
  refine ⟨decodeWord_encode (.jpV0 nnn), fun hlt => ?_,
    fun hge => exec_of_operandFault (i := .jpV0 nnn) (if_pos hge)⟩
  rw [exec_jpV0_of_lt hlt, BitVec.ofNat_add, BitVec.ofNat_toNat, BitVec.ofNat_toNat]
  rfl

end Sys2Proof.Machine
end

section
/-!
SUPPORT. Register loads, the ALU and the random draw (spec/41_alu.md R120-R133): the value each flag
puts in `VF`, and the state a result and its flag leave.
-/

namespace Sys2Proof.Machine

/-! ### The byte of each flag -/

/-- The carry flag as R127's condition on the exact sum. -/
theorem flagByte_carry (a b : Byte) :
    flagByte (carry a b) = if 256 ≤ a.toNat + b.toNat then 1#8 else 0#8 :=
  if_congr decide_eq_true_iff rfl rfl

/-- NOT borrow as the comparison of the bytes (R128, R130). -/
theorem flagByte_noBorrow (a b : Byte) :
    flagByte (noBorrow a b) = if b ≤ a then 1#8 else 0#8 :=
  if_congr decide_eq_true_iff rfl rfl

/-- The carry is the ninth bit of the exact sum (R127). -/
theorem toNat_flagByte_carry (a b : Byte) :
    (flagByte (carry a b)).toNat = (a.toNat + b.toNat) / 256 := by
  have ha := a.isLt
  have hb := b.isLt
  rw [flagByte_carry]
  split
  · simp only [BitVec.toNat_ofNat]; omega
  · simp only [BitVec.toNat_ofNat]; omega

theorem toNat_flagByte_eq_one (c : Bool) : (flagByte c).toNat = 1 ↔ c = true := by
  cases c <;> decide

theorem toNat_flagByte_noBorrow (a b : Byte) :
    (flagByte (noBorrow a b)).toNat = 1 ↔ b.toNat ≤ a.toNat :=
  (toNat_flagByte_eq_one _).trans decide_eq_true_iff

theorem toNat_flagByte_lowBit (b : Byte) : (flagByte (lowBit b)).toNat = b.toNat % 2 := by
  rw [flagByte_lowBit, BitVec.toNat_and]
  exact Nat.and_one_is_mod _

theorem toNat_flagByte_highBit (b : Byte) : (flagByte (highBit b)).toNat = b.toNat / 128 := by
  have hb := b.isLt
  have hand : (b >>> 7 &&& 1#8).toNat = (b.toNat >>> 7) % 2 := by
    rw [BitVec.toNat_and, BitVec.toNat_ushiftRight]
    exact Nat.and_one_is_mod _
  rw [flagByte_highBit, hand, Nat.shiftRight_eq_div_pow]
  omega

/-! ### The state after a result and its flag -/

/-- How every flag-setting form ends: the result in `Vx`, then the flag in `VF`, then `pc + 2` (R120). -/
theorem result_flag_advance (s : State) (x : Reg) {a a' f : Byte} {c : Bool} (ha : a = a')
    (hf : flagByte c = f) : ((s.setV x a).setFlag c).advance =
      ((s.setV x a').setV 0xF#4 f).setPc (s.pc + 2#16) := by
  subst ha hf
  rfl

/-- The flag is the last write: whatever the destination, `VF` ends as the flag (R21, R120). -/
theorem getV_vf_flag_advance (s : State) (c : Bool) :
    (s.setFlag c).advance.getV 0xF#4 = flagByte c :=
  getV_setV_self s vf (flagByte c)

/-- How OR, AND and XOR end: the flag is 0 under the quirk and else not written (R124-R126). -/
theorem result_logicFlag_advance (s : State) (x : Reg) (r : Byte) :
    (s.setV x r).logicFlag.advance =
      (if s.cfg.quirkLogicClearsVf then (s.setV x r).setV 0xF#4 0#8 else s.setV x r).setPc
        (s.pc + 2#16) := by
  rw [State.logicFlag, setV_cfg]
  split <;> rfl

/-! ### The random draw -/

theorem drawn_of_some {s : State} {r : Byte} (h : s.rnd = some r) : s.drawn = r := by
  rw [State.drawn, h, Option.getD_some]

theorem drawn_of_none {s : State} (h : s.rnd = none) : s.drawn = Config.freeDraw s.draws := by
  rw [State.drawn, h, Option.getD_none]

theorem useDraw_of_some {s : State} {r : Byte} (h : s.rnd = some r) :
    s.useDraw = { s with rnd := none } := by
  rw [State.useDraw, h]
  rfl

theorem useDraw_of_none {s : State} (h : s.rnd = none) :
    s.useDraw = { s with draws := s.draws + 1 } := by
  simp [State.useDraw, h]

/-- A masked byte has no bit outside its mask (R132). -/
theorem and_and_not_self (b kk : Byte) : b &&& kk &&& ~~~kk = 0 := by
  rw [BitVec.and_assoc, BitVec.and_not_self]
  exact BitVec.and_zero

/-! ### The obligations -/

/-- Settles O36: the exact difference narrows to the difference modulo 256, and NOT borrow is the
comparison of the two operands. -/
theorem subtractSetsNotBorrow : Obligations.SubtractSetsNotBorrow := by
  intro s x y
  refine ⟨⟨decodeWord_encode (.sub x y), ?_⟩, ⟨decodeWord_encode (.subn x y), ?_⟩⟩
  · exact congrArg Host.Outcome.next
      (result_flag_advance s x (diffByte_eq _ _) (flagByte_noBorrow _ _))
  · exact congrArg Host.Outcome.next
      (result_flag_advance s x (diffByte_eq _ _) (flagByte_noBorrow _ _))

/-- Settles O37: the flag is the bit of the source that the shift drops, whichever register is the
source. -/
theorem shiftsSetTheBitShiftedOut : Obligations.ShiftsSetTheBitShiftedOut := by
  intro s x y
  refine ⟨⟨decodeWord_encode (.shr x y), ?_⟩, ⟨decodeWord_encode (.shl x y), ?_⟩⟩
  · exact congrArg Host.Outcome.next (result_flag_advance s x rfl (flagByte_lowBit _))
  · exact congrArg Host.Outcome.next (result_flag_advance s x rfl (flagByte_highBit _))

/-- Settles O38: the flag overwrites the result in `VF`, and its number is that of the old operands. -/
theorem flagIsWrittenLast : Obligations.FlagIsWrittenLast := by
  intro s y
  refine ⟨⟨_, rfl, ?_⟩, ⟨_, rfl, ?_⟩, ⟨_, rfl, ?_⟩, ⟨_, rfl, ?_⟩, ⟨_, rfl, ?_⟩⟩
  · rw [getV_vf_flag_advance, toNat_flagByte_carry]
  · rw [getV_vf_flag_advance, toNat_flagByte_noBorrow]
  · rw [getV_vf_flag_advance, toNat_flagByte_noBorrow]
  · rw [getV_vf_flag_advance, toNat_flagByte_lowBit]
  · rw [getV_vf_flag_advance, toNat_flagByte_highBit]

/-- Settles O33: the three meanings write `Vx` alone, and the narrowed sum of ADD is the sum modulo
256. -/
theorem loadsAndAddImmediate : Obligations.LoadsAndAddImmediate := by
  intro s x y kk
  refine ⟨⟨decodeWord_encode (.ldImm x kk), rfl⟩, ⟨decodeWord_encode (.addImm x kk), ?_⟩,
    ⟨decodeWord_encode (.ldReg x y), rfl⟩⟩
  exact congrArg (fun b => Host.Outcome.next (s.setV x b).advance) (sumByte_eq (s.getV x) kk)

/-- Settles O34: the three forms differ in the result alone, and end the same way for either setting
of the quirk. -/
theorem logicOperations : Obligations.LogicOperations := by
  intro s x y
  refine ⟨⟨decodeWord_encode (.orReg x y), ?_⟩, ⟨decodeWord_encode (.andReg x y), ?_⟩,
    ⟨decodeWord_encode (.xorReg x y), ?_⟩⟩
  · exact congrArg Host.Outcome.next (result_logicFlag_advance s x _)
  · exact congrArg Host.Outcome.next (result_logicFlag_advance s x _)
  · exact congrArg Host.Outcome.next (result_logicFlag_advance s x _)

/-- Settles O35: the exact sum narrows to the sum modulo 256, and the carry compares it with 256. -/
theorem addSetsCarry : Obligations.AddSetsCarry :=
  fun s x y => ⟨decodeWord_encode (.addReg x y), congrArg Host.Outcome.next
    (result_flag_advance s x (sumByte_eq _ _) (flagByte_carry _ _))⟩

/-- Settles O39: the draw is the host's where it passed one and else the next free value, and masking
it leaves no bit outside `kk`. -/
theorem randomIsMasked : Obligations.RandomIsMasked := by
  intro s x kk
  have hexec : exec (.rnd x kk) s = .next (s.useDraw.setV x (s.drawn &&& kk)).advance := rfl
  refine ⟨decodeWord_encode (.rnd x kk), fun r hr => ?_, fun hn => ?_, fun t ht => ?_⟩
  · rw [hexec, useDraw_of_some hr, drawn_of_some hr]
    rfl
  · rw [hexec, useDraw_of_none hn, drawn_of_none hn]
    rfl
  · cases hexec.symm.trans ht
    rw [advance_eq, setPc_getV, getV_setV_self]
    exact and_and_not_self _ _

end Sys2Proof.Machine
end

section
/-!
SUPPORT. The index register and the memory transfers (spec/42_index_memory.md R150-R155): the words
`I` is set to, the digits Fx33 stores, and the states that Fx55 and Fx65 answer.
-/

namespace Sys2Proof.Machine

/-! ### The words `I` is set to -/

/-- The sum of Fx1E is the 16-bit sum (R151, D9). -/
theorem addI_word (w : Word) (b : Byte) :
    BitVec.ofNat 16 (w.toNat + b.toNat) = w + b.setWidth 16 := by
  rw [BitVec.ofNat_add, BitVec.ofNat_toNat, BitVec.ofNat_toNat, BitVec.setWidth_eq]

/-- The glyph address of Fx29 is at most `5 * 15`, so nothing is lost in 16 bits (R152). -/
theorem glyphAddress_toNat (b : Byte) :
    (BitVec.ofNat 16 (5 * (b &&& 0x0F).toNat)).toNat = 5 * (b.toNat % 16) := by
  rw [BitVec.toNat_ofNat, lowNibble_toNat]
  omega

/-- `I` after Fx55 or Fx65, as a 16-bit sum (R154, R155). -/
theorem advanceI_i (s : State) (x : Reg) :
    (s.advanceI x).i =
      if s.cfg.quirkLoadStoreAdvancesI then s.i + x.setWidth 16 + 1 else s.i := by
  rw [advanceI_eq, setI_i, advanceI_word]
  rfl

/-! ### The digits of Fx33 -/

/-- A decimal digit fits a byte. -/
theorem toNat_ofNat_digit {d : Nat} (h : d < 10) : (BitVec.ofNat 8 d).toNat = d := by
  rw [BitVec.toNat_ofNat]
  omega

theorem read_bcdBlock_hundreds (s : State) (b : Byte) :
    ((s.bcdBlock b).read (s.ea 0)).toNat = b.toNat / 100 := by
  have hb := b.isLt
  have h20 : s.ea 2 ≠ s.ea 0 := ea_ne s (by decide) (by decide) (by decide)
  have h10 : s.ea 1 ≠ s.ea 0 := ea_ne s (by decide) (by decide) (by decide)
  rw [State.bcdBlock, Memory.read_write_of_ne _ h20, Memory.read_write_of_ne _ h10,
    Memory.read_write_self]
  exact toNat_ofNat_digit (by omega)

theorem read_bcdBlock_tens (s : State) (b : Byte) :
    ((s.bcdBlock b).read (s.ea 1)).toNat = b.toNat / 10 % 10 := by
  have h21 : s.ea 2 ≠ s.ea 1 := ea_ne s (by decide) (by decide) (by decide)
  rw [State.bcdBlock, Memory.read_write_of_ne _ h21, Memory.read_write_self]
  exact toNat_ofNat_digit (Nat.mod_lt _ (by decide))

theorem read_bcdBlock_ones (s : State) (b : Byte) :
    ((s.bcdBlock b).read (s.ea 2)).toNat = b.toNat % 10 := by
  rw [State.bcdBlock, Memory.read_write_self]
  exact toNat_ofNat_digit (Nat.mod_lt _ (by decide))

/-! ### The blocks of Fx55 and Fx65 -/

/-- A register of the block that Fx55 stores is the byte at its `EA` (R154). -/
theorem read_storeBlock_reg (s : State) {x r : Reg} (h : r.toNat ≤ x.toNat) :
    (s.storeBlock (x.toNat + 1)).read (s.ea r.toNat) = s.getV r := by
  have hread := (read_storeBlock s x.isLt (s.ea r.toNat)).1 r.toNat (Nat.lt_succ_of_le h) rfl
  rwa [BitVec.ofNat_toNat, BitVec.setWidth_eq] at hread

/-- A byte at no register's `EA` is as before (R57, R154). -/
theorem read_storeBlock_of_ne (s : State) {x : Reg} {a : Nat}
    (h : ∀ r : Reg, r.toNat ≤ x.toNat → a ≠ s.ea r.toNat) :
    (s.storeBlock (x.toNat + 1)).read a = s.readMem a := by
  have hx := x.isLt
  refine (read_storeBlock s x.isLt a).2 fun k hk => ?_
  have hreg := h (BitVec.ofNat 4 k)
  rw [ofNat_toNat_reg (by omega)] at hreg
  exact hreg (Nat.le_of_lt_succ hk)

/-- The registers after Fx65's block is loaded (R155). -/
theorem getV_loadBlock_le (s : State) (x r : Reg) :
    (s.loadBlock (x.toNat + 1)).getV r =
      if r.toNat ≤ x.toNat then s.readMem (s.ea r.toNat) else s.getV r :=
  (getV_loadBlock s x.isLt r).trans (if_congr Nat.lt_succ_iff rfl rfl)

theorem exec_storeRegs (s : State) (x : Reg) :
    exec (.storeRegs x) s = .next { s with
      mem := s.storeBlock (x.toNat + 1)
      i := if s.cfg.quirkLoadStoreAdvancesI then s.i + x.setWidth 16 + 1 else s.i
      pc := s.pc + 2#16 } := by
  rw [← advanceI_i, exec, execStoreRegs, setMem_advanceI]
  rfl

theorem exec_loadRegs (s : State) (x : Reg) :
    exec (.loadRegs x) s = .next { s with
      v := (s.loadBlock (x.toNat + 1)).v
      i := if s.cfg.quirkLoadStoreAdvancesI then s.i + x.setWidth 16 + 1 else s.i
      pc := s.pc + 2#16 } := by
  rw [← advanceI_i, exec, execLoadRegs, loadBlock_advanceI_advance]

theorem ea_congr {s u : State} (h : u.i = s.i) (k : Nat) : u.ea k = s.ea k := by
  rw [State.ea, State.ea, h]

/-! ### The obligations -/

/-- Settles O41: the three digits lie at different addresses, so each survives the later writes. -/
theorem bcdStoresThreeDigits : Obligations.BcdStoresThreeDigits := by
  intro s x
  refine ⟨decodeWord_encode (.ldB x), s.bcdBlock (s.getV x), rfl, read_bcdBlock_hundreds s _,
    read_bcdBlock_tens s _, read_bcdBlock_ones s _, fun a h0 h1 h2 => ?_⟩
  refine read_bcdBlock_of_ne s _ fun k hk => ?_
  match k, hk with
  | 0, _ => exact h0
  | 1, _ => exact h1
  | 2, _ => exact h2

/-- Settles O42: the memory is the stored block, read at an `EA` of the block and elsewhere. -/
theorem storeRegistersToMemory : Obligations.StoreRegistersToMemory :=
  fun s x => ⟨decodeWord_encode (.storeRegs x), _, exec_storeRegs s x,
    fun _ => read_storeBlock_reg s, fun _ => read_storeBlock_of_ne s⟩

/-- Settles O43: the registers are those of the loaded block. -/
theorem loadRegistersFromMemory : Obligations.LoadRegistersFromMemory :=
  fun s x => ⟨decodeWord_encode (.loadRegs x), _, exec_loadRegs s x, getV_loadBlock_le s x⟩

/-- Settles O44: at the same `I` the load reads the addresses of the store, and each holds the
register stored there. -/
theorem loadUndoesStore : Obligations.LoadUndoesStore := by
  intro s t u x hstore hmem hi
  cases (exec_storeRegs s x).symm.trans hstore
  refine ⟨_, exec_loadRegs u x, fun r hr => ?_⟩
  calc (u.loadBlock (x.toNat + 1)).getV r
      = u.readMem (u.ea r.toNat) := (getV_loadBlock_le u x r).trans (if_pos hr)
    _ = (s.storeBlock (x.toNat + 1)).read (s.ea r.toNat) := by
        rw [State.readMem, hmem, ea_congr hi]
    _ = s.getV r := read_storeBlock_reg s hr

/-- Settles O40: the narrowed sum of Fx1E is the 16-bit sum, and the glyph address of Fx29 is not
narrowed. -/
theorem indexRegisterLoads : Obligations.IndexRegisterLoads := by
  intro s x nnn
  refine ⟨⟨decodeWord_encode (.ldI nnn), rfl⟩, ⟨decodeWord_encode (.addI x), ?_⟩,
    ⟨decodeWord_encode (.ldF x), _, glyphAddress_toNat (s.getV x), rfl⟩⟩
  exact congrArg (fun w => Host.Outcome.next (s.setI w).advance) (addI_word s.i (s.getV x))

end Sys2Proof.Machine
end

section
/-!
SUPPORT. Clear and draw (spec/43_display.md R170-R172): the loop of R172 flips, bit by bit, the pixels
under a growing mask of sprite bits, and its collision flag is told by the same mask.
-/

namespace Sys2Proof.Machine

/-- Settles O45: the blank framebuffer has every pixel 0, and CLS writes it and `pc` alone. -/
theorem clearScreen : Obligations.ClearScreen :=
  ⟨decodeWord_encode .cls, fun _ => ⟨Framebuffer.blank, rfl, pixel_blank⟩⟩

/-! ### A framebuffer drawn over by a mask -/

/-- Coordinates that wrap to the same place name the same pixel (R170). -/
theorem pixel_congr (fb : Framebuffer) {y x y' x' : Nat} (hy : y % 32 = y' % 32)
    (hx : x % 64 = x' % 64) : fb.pixel y x = fb.pixel y' x' := by
  simp only [Framebuffer.pixel, hy, hx]

/-- Some pixel of value `b` lies under a bit of the mask. -/
def MaskMeets (fb : Framebuffer) (m : Nat → Nat → Bool) (b : Bool) : Prop :=
  ∃ py px, py < 32 ∧ px < 64 ∧ fb.pixel py px = b ∧ m py px = true

/-- The pair `acc` of the loop of R172 after the bits of mask `m` are drawn on `fb`: the pixels under
the mask are flipped, and the flag says whether one of them was 1. -/
structure DrawnOver (fb : Framebuffer) (m : Nat → Nat → Bool) (acc : Framebuffer × Bool) : Prop where
  pixel : ∀ py px, acc.1.pixel py px = Bool.xor (fb.pixel py px) (m py px)
  collision : acc.2 = true ↔ MaskMeets fb m true

theorem drawnOver_empty (fb : Framebuffer) : DrawnOver fb (fun _ _ => false) (fb, false) where
  pixel _ _ := (Bool.xor_false _).symm
  collision := by simp [MaskMeets]

/-- The mask with one more bit, at `(x, y)` wrapped. -/
def addBit (m : Nat → Nat → Bool) (y x : Nat) (bit : Bool) (py px : Nat) : Bool :=
  m py px || (bit && decide (y % 32 = py % 32 ∧ x % 64 = px % 64))

theorem maskMeets_addBit (fb : Framebuffer) (m : Nat → Nat → Bool) (y x : Nat) :
    MaskMeets fb (addBit m y x true) true ↔ MaskMeets fb m true ∨ fb.pixel y x = true := by
  simp only [MaskMeets, addBit, Bool.true_and, Bool.or_eq_true, decide_eq_true_eq]
  constructor
  · rintro ⟨py, px, hy, hx, hp, hm | ⟨ey, ex⟩⟩
    · exact .inl ⟨py, px, hy, hx, hp, hm⟩
    · exact .inr ((pixel_congr fb ey ex).trans hp)
  · rintro (⟨py, px, hy, hx, hp, hm⟩ | hp)
    · exact ⟨py, px, hy, hx, hp, .inl hm⟩
    · have ey : y % 32 = y % 32 % 32 := (Nat.mod_mod y 32).symm
      have ex : x % 64 = x % 64 % 64 := (Nat.mod_mod x 64).symm
      exact ⟨y % 32, x % 64, Nat.mod_lt _ (by decide), Nat.mod_lt _ (by decide),
        (pixel_congr fb ey ex).symm.trans hp, .inr ⟨ey, ex⟩⟩

/-- One bit of the loop adds that bit to the mask, where the mask does not cover its pixel yet: so the
pixel that the loop tests still has its value of before the draw. -/
theorem drawnOver_drawBit {fb : Framebuffer} {m : Nat → Nat → Bool} {acc : Framebuffer × Bool}
    (h : DrawnOver fb m acc) {cx cy r b : Nat} (bit : Bool)
    (hm : ∀ py px, (cy + r) % 32 = py % 32 → (cx + b) % 64 = px % 64 → m py px = false) :
    DrawnOver fb (addBit m (cy + r) (cx + b) bit) (drawBit cx cy r b bit acc) := by
  cases bit with
  | false =>
    have same : addBit m (cy + r) (cx + b) false = m := by
      funext py px
      exact Bool.or_false _
    rw [same]
    exact h
  | true =>
    have old : ∀ py px, (cy + r) % 32 = py % 32 → (cx + b) % 64 = px % 64 →
        acc.1.pixel (cy + r) (cx + b) = fb.pixel py px := fun py px hy hx => by
      rw [pixel_congr acc.1 hy hx, h.pixel, hm py px hy hx, Bool.xor_false]
    constructor
    · intro py px
      simp only [drawBit, if_true, pixel_setPixel, addBit, Bool.true_and]
      by_cases hp : (cy + r) % 32 = py % 32 ∧ (cx + b) % 64 = px % 64
      · simp [hp, old py px hp.1 hp.2]
      · simp [hp, h.pixel]
    · rw [maskMeets_addBit, ← h.collision, ← old _ _ rfl rfl]
      exact Bool.or_eq_true_iff

/-! ### The bits of one row -/

/-- The row of the sprite that lies on framebuffer row `py` (R170). -/
def rowOffset (cy py : Nat) : Nat := (py + 32 - cy % 32) % 32

/-- The column of the sprite that lies on framebuffer column `px` (R170). -/
def colOffset (cx px : Nat) : Nat := (px + 64 - cx % 64) % 64

theorem rowOffset_eq_iff {cy r py : Nat} (hr : r < 32) :
    rowOffset cy py = r ↔ (cy + r) % 32 = py % 32 := by
  unfold rowOffset
  omega

theorem colOffset_eq_iff {cx b px : Nat} (hb : b < 64) :
    colOffset cx px = b ↔ (cx + b) % 64 = px % 64 := by
  unfold colOffset
  omega

theorem spriteBit_eq (s : State) (cx cy n py px : Nat) :
    s.spriteBit cx cy n py px = (decide (rowOffset cy py < n) && decide (colOffset cx px < 8) &&
      (s.readMem (s.ea (rowOffset cy py))).getLsbD (7 - colOffset cx px)) := rfl

/-- The mask `m` with the first `count` bits of sprite row `r`. -/
def addRow (m : Nat → Nat → Bool) (cx cy r : Nat) (row : Byte) (count py px : Nat) : Bool :=
  m py px || (decide (rowOffset cy py = r) && decide (colOffset cx px < count) &&
    row.getLsbD (7 - colOffset cx px))

theorem addRow_zero (m : Nat → Nat → Bool) (cx cy r : Nat) (row : Byte) :
    addRow m cx cy r row 0 = m := by
  funext py px
  simp [addRow]

theorem addRow_succ (m : Nat → Nat → Bool) (cx cy : Nat) {r b : Nat} (row : Byte) (hr : r < 32)
    (hb : b < 64) : addRow m cx cy r row (b + 1) =
      addBit (addRow m cx cy r row b) (cy + r) (cx + b) (row.getLsbD (7 - b)) := by
  funext py px
  simp only [addRow, addBit, ← rowOffset_eq_iff hr, ← colOffset_eq_iff hb]
  rcases Nat.lt_trichotomy (colOffset cx px) b with h | h | h
  · simp [h, Nat.lt_succ_of_lt h, Nat.ne_of_lt h]
  · simp [h, Bool.and_comm]
  · simp [Nat.not_lt_of_gt h, Nat.ne_of_gt h, show ¬ colOffset cx px < b + 1 by omega]

/-- Drawing a row adds its bits to the mask, where the mask has none of that row yet. -/
theorem drawnOver_drawRow {fb : Framebuffer} {m : Nat → Nat → Bool} {acc : Framebuffer × Bool}
    (h : DrawnOver fb m acc) (cx cy : Nat) {r : Nat} (row : Byte) (hr : r < 32)
    (hm : ∀ py px, rowOffset cy py = r → m py px = false) {count : Nat} (hc : count ≤ 64) :
    DrawnOver fb (addRow m cx cy r row count) (drawRow cx cy r row count acc) := by
  induction count with
  | zero => exact (addRow_zero m cx cy r row).symm ▸ h
  | succ b ih =>
    rw [addRow_succ m cx cy row hr hc]
    refine drawnOver_drawBit (ih (by omega)) _ fun py px hy hx => ?_
    have hrow := hm py px ((rowOffset_eq_iff hr).2 hy)
    have hcol : colOffset cx px = b := (colOffset_eq_iff hc).2 hx
    simp [addRow, hrow, hcol]

/-! ### The whole sprite -/

theorem spriteBit_zero (s : State) (cx cy : Nat) :
    s.spriteBit cx cy 0 = fun _ _ => false := rfl

theorem spriteBit_succ (s : State) (cx cy r : Nat) : s.spriteBit cx cy (r + 1) =
    addRow (s.spriteBit cx cy r) cx cy r (s.readMem (s.ea r)) 8 := by
  funext py px
  simp only [addRow, spriteBit_eq]
  rcases Nat.lt_trichotomy (rowOffset cy py) r with h | h | h
  · simp [h, Nat.lt_succ_of_lt h, Nat.ne_of_lt h]
  · simp [h]
  · simp [Nat.not_lt_of_gt h, Nat.ne_of_gt h, show ¬ rowOffset cy py < r + 1 by omega]

/-- The loop of R172 draws the sprite of R170. -/
theorem drawnOver_drawSprite (s : State) (cx cy : Nat) {n : Nat} (hn : n ≤ 32) :
    DrawnOver s.fb (s.spriteBit cx cy n) (s.drawSprite cx cy n) := by
  induction n with
  | zero => exact (spriteBit_zero s cx cy).symm ▸ drawnOver_empty s.fb
  | succ r ih =>
    rw [spriteBit_succ]
    refine drawnOver_drawRow (ih (by omega)) cx cy _ hn (fun py px h => ?_) (by decide)
    simp [spriteBit_eq, h]

/-- What Dxyn answers: the old framebuffer drawn over by the sprite, `VF` and `pc` (R172). -/
theorem exec_drw_drawnOver (s : State) (x y : Reg) (n : Nibble) : ∃ (fb : Framebuffer) (c : Bool),
    exec (.drw x y n) s =
      .next (((s.setFb fb).setV 0xF#4 (flagByte c)).setPc (s.pc + 2#16)) ∧
    DrawnOver s.fb (s.spriteBit (s.getV x).toNat (s.getV y).toNat n.toNat) (fb, c) :=
  ⟨_, _, rfl, drawnOver_drawSprite s _ _ (Nat.le_trans (Nat.le_of_lt n.isLt) (by decide))⟩

/-! ### The obligations -/

/-- Settles O46: no two bits of a sprite lie on one pixel, so the loop flips each pixel under the sprite
once and tests it before. -/
theorem drawXorsTheSprite : Obligations.DrawXorsTheSprite := by
  intro s x y n
  obtain ⟨fb, c, hexec, hdrawn⟩ := exec_drw_drawnOver s x y n
  exact ⟨decodeWord_encode (.drw x y n), fb, c, hexec, fun py px _ _ => hdrawn.pixel py px,
    hdrawn.collision⟩

/-- The same sprite bits at the same memory and `I`. -/
theorem spriteBit_congr {s u : State} (hm : u.mem = s.mem) (hi : u.i = s.i) (cx cy n : Nat) :
    u.spriteBit cx cy n = s.spriteBit cx cy n := by
  funext py px
  simp only [spriteBit_eq, State.readMem, hm, ea_congr hi]

/-- Flipping under a mask twice restores the framebuffer. -/
theorem DrawnOver.restores {fb : Framebuffer} {m : Nat → Nat → Bool} {acc acc' : Framebuffer × Bool}
    (h : DrawnOver fb m acc) (h' : DrawnOver acc.1 m acc') : acc'.1 = fb :=
  Framebuffer.ext_pixel fun py px _ _ => by
    rw [h'.pixel, h.pixel, Bool.xor_assoc, Bool.xor_self, Bool.xor_false]

/-- A pixel under the mask is 1 after the first flip exactly where it was 0 before. -/
theorem DrawnOver.maskMeets_iff {fb : Framebuffer} {m : Nat → Nat → Bool} {acc : Framebuffer × Bool}
    (h : DrawnOver fb m acc) : MaskMeets acc.1 m true ↔ MaskMeets fb m false := by
  have flipped : ∀ py px,
      acc.1.pixel py px = true ∧ m py px = true ↔ fb.pixel py px = false ∧ m py px = true :=
    fun py px => and_congr_left fun hm => by rw [h.pixel, hm, Bool.xor_true, Bool.not_eq_true']
  simp only [MaskMeets, flipped]

/-- Settles O47: the second draw flips under the same mask as the first. -/
theorem doubleDrawRestores : Obligations.DoubleDrawRestores := by
  intro s t u w x y x' y' n hst hfb hmem hi hx hy huw
  obtain ⟨fb, c, hs, hfirst⟩ := exec_drw_drawnOver s x y n
  obtain ⟨fb', c', hu, hsecond⟩ := exec_drw_drawnOver u x' y' n
  cases hs.symm.trans hst
  cases hu.symm.trans huw
  rw [hfb, hx, hy, spriteBit_congr hmem hi] at hsecond
  refine ⟨hfirst.restores hsecond, ?_⟩
  have hflag : flagByte c' = 1 ↔ c' = true :=
    BitVec.toNat_inj.symm.trans (toNat_flagByte_eq_one c')
  rw [setPc_getV, getV_setV_self, hflag]
  exact hsecond.collision.trans hfirst.maskMeets_iff

end Sys2Proof.Machine
end

section
/-!
SUPPORT. Key skips, timer transfers and the wait for a key (spec/44_keys_timers.md R180-R186): one
equation per branch of a meaning, and the obligations from them.
-/

namespace Sys2Proof.Machine

/-! ### The wait for a key, case by case (R186) -/

section
variable {s : State} (x : Reg)

theorem exec_ldVxK_of_noKey (ha : s.waitArmed = false) (hk : s.leastPressed = none) :
    exec (.ldVxK x) s = .next s := by
  simp [exec, execLdVxK, ha, hk]

theorem exec_ldVxK_of_leastPressed {k : Nibble} (ha : s.waitArmed = false)
    (hk : s.leastPressed = some k) : exec (.ldVxK x) s = .next (s.setLatch true k) := by
  simp [exec, execLdVxK, ha, hk]

theorem exec_ldVxK_of_held (ha : s.waitArmed = true) (hk : s.key s.waitKey = true) :
    exec (.ldVxK x) s = .next s :=
  (if_pos ha).trans (if_pos hk)

theorem exec_ldVxK_of_released (ha : s.waitArmed = true) (hk : s.key s.waitKey = false) :
    exec (.ldVxK x) s =
      .next ((s.setV x (s.waitKey.setWidth 8)).setLatch false 0).advance :=
  (if_pos ha).trans (if_neg (by simp [hk]))

end

/-- Settles O50: an unarmed step follows the lowest pressed key, an armed one the tracked key alone. -/
theorem waitForKey : Obligations.WaitForKey := by
  intro s x
  refine ⟨decodeWord_encode (.ldVxK x), fun ha hnone => ?_, fun k ha hk hleast => ?_,
    exec_ldVxK_of_held x, exec_ldVxK_of_released x⟩
  · exact exec_ldVxK_of_noKey x ha (leastPressed_of_none s hnone)
  · exact exec_ldVxK_of_leastPressed x ha (leastPressed_of_least s hk hleast)

/-! ### The key skips (R180-R182) -/

/-- The key that `Vx` names, where its value is a key number (R180). -/
theorem key_setWidth_of_toNat (s : State) {b : Byte} {k : Fin 16} (h : b.toNat = k.val) :
    s.key (b.setWidth 4) = s.keys[k.val] := by
  have hmod : k.val % 2 ^ 4 = k.val := Nat.mod_eq_of_lt k.isLt
  simp only [State.key, BitVec.toNat_setWidth, h, hmod]

theorem skipIf_not (s : State) (c : Bool) :
    s.skipIf (!c) = { s with pc := if c then s.pc + 2#16 else s.pc + 4#16 } := by
  cases c <;> rfl

/-- Settles O48: a key number is its own low nibble, and a value above 15 is the operand fault. -/
theorem keySkips : Obligations.KeySkips := by
  intro s x
  refine ⟨⟨decodeWord_encode (.skp x), decodeWord_encode (.sknp x)⟩, fun k hk => ?_, fun hx => ?_⟩
  · have hle : ¬ 15 < (s.getV x).toNat := by omega
    rw [exec_skp_of_le hle, exec_sknp_of_le hle, key_setWidth_of_toNat s hk, skipIf_eq, skipIf_not]
    exact ⟨rfl, rfl⟩
  · exact ⟨exec_of_operandFault (if_pos hx), exec_of_operandFault (if_pos hx)⟩

/-! ### The timer transfers (R183-R185) -/

/-- Settles O49: each transfer is one write and the advance, and the gate is read from the new `ST`. -/
theorem timerTransfers : Obligations.TimerTransfers := fun _ x =>
  ⟨⟨decodeWord_encode (.ldVxDt x), rfl⟩, ⟨decodeWord_encode (.ldDtVx x), rfl⟩,
    decodeWord_encode (.ldStVx x), rfl, (soundGateFollowsSoundTimer _).1⟩

end Sys2Proof.Machine
end

section
/-!
SUPPORT. The faults of a step, the frozen state, the idle state and the host operations
(spec/60_exceptions.md R200-R216).
-/

namespace Sys2Proof.Machine

/-! ### The fault causes of a step (R201, R205) -/

/-- The first cause of R201 in R205's order: the fetch check, the decode, the operand check. -/
theorem faultCause_cases (s : State) :
    (s.canFetch = false ∧ s.faultCause = some .fetchOutOfRange) ∨
    (s.canFetch = true ∧ decodeWord s.fetchWord = none ∧ s.faultCause = some .illegalOpcode) ∨
    (∃ i, s.canFetch = true ∧ decodeWord s.fetchWord = some i ∧
      s.faultCause = s.operandFault i) := by
  by_cases hpc : 0xFFE < s.pc.toNat
  · exact .inl ⟨decide_eq_false (Nat.not_le.2 hpc), if_pos hpc⟩
  · have hc : s.canFetch = true := decide_eq_true (Nat.not_lt.1 hpc)
    cases hd : decodeWord s.fetchWord with
    | none => exact .inr (.inl ⟨hc, rfl, by simp only [State.faultCause, if_neg hpc, hd]⟩)
    | some i => exact .inr (.inr ⟨i, hc, rfl, by simp only [State.faultCause, if_neg hpc, hd]⟩)

/-- An operand check never answers the fetch check's code. -/
theorem ne_fetchOutOfRange_of_operandFault {s : State} {i : Instr} {c : FaultCode}
    (h : s.operandFault i = some c) : c ≠ .fetchOutOfRange := by
  rintro rfl
  cases i with
  | ret | call | jpV0 | skp | sknp =>
    obtain ⟨_, hc⟩ := Option.ite_none_right_eq_some.1 h
    exact nomatch hc
  | _ => exact nomatch h

/-- Settles O9: each of the three checks ends the step in fault entry, and the word of an
instruction's fault is the fetched one. -/
theorem faultingStepWritesStatusAlone : Obligations.FaultingStepWritesStatusAlone := by
  intro s c hs hcause
  rcases faultCause_cases s with ⟨hc, h⟩ | ⟨hc, hd, h⟩ | ⟨i, hc, hd, h⟩
  · cases h.symm.trans hcause
    exact step_of_not_canFetch hs hc
  · cases h.symm.trans hcause
    exact step_of_illegal hs hc hd
  · have hop : s.operandFault i = some c := h.symm.trans hcause
    have hword : s.faultWord c = some s.fetchWord := if_neg (ne_fetchOutOfRange_of_operandFault hop)
    rw [step_of_decodeWord hs hc hd, exec_of_operandFault hop, raiseAt_eq, encodeOfDecode _ i hd,
      hword]
    rfl

/-- Settles O10: with no cause there is an instruction whose operand check passes, and no effect but
fault entry writes `STATUS`. -/
theorem noCauseNoFault : Obligations.NoCauseNoFault := by
  intro s hs hcause
  rcases faultCause_cases s with ⟨_, h⟩ | ⟨_, _, h⟩ | ⟨i, hc, hd, h⟩
  · exact nomatch h.symm.trans hcause
  · exact nomatch h.symm.trans hcause
  · obtain ⟨t, ht, _⟩ := exec_effect i s
    have hstatus : t.status = s.status := (statusFrame i s t ht).1 (h.symm.trans hcause)
    exact ⟨t, (step_of_decodeWord hs hc hd).trans ht, hstatus.trans hs⟩

/-! ### The idle state (R216) -/

/-- The jump to `a` is the pattern 0x1000 with `a` in its low twelve bits (R73). -/
theorem encode_jp_eq_or (a : Addr) : encode (.jp a) = 0x1000#16 ||| a.setWidth 16 := rfl

/-- An address that may be fetched fits in the operand of a jump. -/
theorem setWidth_setWidth_of_le {w : Word} (h : w.toNat ≤ 0xFFE) :
    (w.setWidth 12).setWidth 16 = w := by
  apply BitVec.eq_of_toNat_eq
  simp only [BitVec.toNat_setWidth]
  omega

/-- Settles O12: the word at an idle `pc` is the jump to that `pc`. -/
theorem idleStepChangesNothing : Obligations.IdleStepChangesNothing := by
  rintro s ⟨hs, hc, hw⟩
  have hpc : (s.pc.setWidth 12).setWidth 16 = s.pc := setWidth_setWidth_of_le (of_decide_eq_true hc)
  have hd : decodeWord s.fetchWord = some (.jp (s.pc.setWidth 12)) := by
    rw [hw, ← decodeWord_encode, encode_jp_eq_or, hpc]
  rw [step_of_decodeWord hs hc hd, exec_jp, hpc]
  rfl

/-! ### Ticks (R208) -/

theorem tick_of_running {s : State} (hs : s.status = .running) :
    s.tick = { s with dt := countDown s.dt, st := countDown s.st } := by
  rw [tick_eq]
  simp [State.tick, hs]

theorem tick_of_not_running {s : State} (hs : s.status ≠ .running) : s.tick = s := by
  cases hst : s.status with
  | running => exact absurd hst hs
  | faulted => simp only [State.tick, hst]

/-- Settles O51: a countdown is the truncated subtraction of one. -/
theorem tickCountsDown : Obligations.TickCountsDown := fun s =>
  ⟨fun hs => ⟨_, _, tick_of_running hs, countDown_toNat s.dt, countDown_toNat s.st⟩,
    tick_of_not_running⟩

/-! ### Reset: the image and the load faults (R215, R230-R233) -/

theorem load_of_fits (s : State) {bytes : List Byte} (h : bytes.length ≤ 3584) :
    s.load (some bytes) = s.zeroed.setMem (Memory.load s.zeroed.mem 0x200 bytes) :=
  if_pos (decide_eq_true h)

/-- A load fault leaves the zeroed state, no byte of the image written. -/
theorem load_of_not_fits (s : State) {image : Option (List Byte)}
    (h : image = none ∨ ∃ bytes, image = some bytes ∧ 3584 < bytes.length) :
    s.load image = s.zeroed.setStatus
      (.faulted (if image = none then .loadImageMissing else .loadImageTooLarge) none none) := by
  rcases h with rfl | ⟨bytes, rfl, hlen⟩
  · rfl
  · have hfit : ¬ imageFits bytes = true := by simpa [imageFits] using hlen
    simp only [State.load, if_neg hfit, reduceCtorEq, if_false]

theorem load_nil (s : State) : s.load (some []) = s.zeroed := rfl

/-- The zeroed memory is the font at 0x000 (R231) and 0 above it (R58). -/
theorem zeroed_readMem_of_lt (s : State) {a : Nat} (h : a < 80) :
    s.zeroed.readMem a = s.cfg.font[a] := by
  have hread := Memory.read_load [] 0 a s.cfg.font.toList
  rwa [dif_pos (by simpa using h)] at hread

theorem zeroed_readMem_of_ge (s : State) {a : Nat} (h : 80 ≤ a) : s.zeroed.readMem a = 0 := by
  have hread := Memory.read_load [] 0 a s.cfg.font.toList
  rw [dif_neg (by simpa using h)] at hread
  exact hread.trans (List.getD_eq_default _ _ h)

theorem zeroed_fetchWord (s : State) : s.zeroed.fetchWord = 0 := by
  have hhi : s.zeroed.readMem 0x200 = 0 := zeroed_readMem_of_ge s (by decide)
  have hlo : s.zeroed.readMem 0x201 = 0 := zeroed_readMem_of_ge s (by decide)
  exact congrArg₂ wordOfBytes hhi hlo

/-- The first step after a reset that loads nothing meets the illegal word 0x0000 (R74). -/
theorem step_zeroed (s : State) :
    step s.zeroed = .next (s.zeroed.raise .illegalOpcode (some 0x0000)) := by
  have hd : decodeWord s.zeroed.fetchWord = none := by
    rw [zeroed_fetchWord]
    decide
  have h := step_of_illegal (s := s.zeroed) rfl rfl hd
  rwa [zeroed_fetchWord] at h

/-- Settles O55: a load fault is the zeroed state with `STATUS` written, so it is frozen; a reset
with the empty image is the zeroed state itself. -/
theorem loadFaults : Obligations.LoadFaults := by
  intro s
  refine ⟨fun image h => ?_, rfl, step_zeroed s⟩
  rw [load_of_not_fits s h]
  exact ⟨rfl, rfl, fun _ => zeroed_readMem_of_lt s, fun _ => zeroed_readMem_of_ge s,
    step_of_not_running nofun, tick_of_not_running nofun⟩

/-! ### The frozen state and the other host operations (R204, R209, R210) -/

theorem steps_of_not_running {s : State} (hs : s.status ≠ .running) (n : Nat) :
    s.steps n = .next s := by
  induction n with
  | zero => rfl
  | succ n ih => simp only [State.steps, ih, step_of_not_running hs]

theorem batch_of_not_running {s : State} (hs : s.status ≠ .running) (n : StepsPerTick) :
    s.batch n = .next s := by
  simp only [State.batch, steps_of_not_running hs, tick_of_not_running hs]

/-- Settles O11: neither a step nor a tick moves a faulted state, so no number of them does. -/
theorem faultedStateIsFrozen : Obligations.FaultedStateIsFrozen := by
  intro s hs
  refine ⟨step_of_not_running hs, tick_of_not_running hs, steps_of_not_running hs,
    batch_of_not_running hs, fun image hlen => ?_⟩
  rw [load_of_fits s hlen]
  rfl

theorem stepWith_of_step {s t : State} {r : Byte} (h : step { s with rnd := some r } = .next t) :
    s.stepWith r = .next { t with rnd := none } := by
  simp only [State.stepWith, h]

/-- Settles O56: each operation is one arm of `hostApply`, and peek alone has a check. -/
theorem hostOperations : Obligations.HostOperations := fun _ =>
  ⟨fun _ => rfl, fun _ _ => stepWith_of_step, rfl, rfl, fun _ ha => if_pos ha,
    fun _ ha => if_neg (Nat.not_lt.2 ha)⟩

end Sys2Proof.Machine
end

section
/-!
SUPPORT. The reset state, and Reset with an image that fits (spec/70_reset_and_hazards.md R230-R234).
-/

namespace Sys2Proof.Machine

/-! ### The reset state (R230, R231, R234) -/

theorem reset_getV (x : Reg) : State.reset.getV x = 0 := Vector.getElem_replicate _

theorem reset_stack (j : Fin 16) : State.reset.stack[j.val] = 0 := Vector.getElem_replicate _

theorem reset_key (k : Nibble) : State.reset.key k = false := Vector.getElem_replicate _

/-- An address that memory does not list reads as the default font below 0x050 (R58). -/
theorem reset_readMem_of_lt {a : Nat} (h : a < 0x50) :
    State.reset.readMem a = State.reset.cfg.font[a] :=
  List.getD_eq_getElem defaultFontBytes 0 h

theorem reset_readMem_of_ge {a : Nat} (h : 0x50 ≤ a) : State.reset.readMem a = 0 :=
  List.getD_eq_default defaultFontBytes 0 h

/-- Settles O53: the array fields repeat one zero, and memory lists nothing, so it reads as the font
and then 0. -/
theorem resetValues : Obligations.ResetValues :=
  ⟨reset_getV, rfl, rfl, rfl, reset_stack, rfl, rfl, rfl, pixel_blank, rfl, rfl, rfl, reset_key,
    fun _ => reset_readMem_of_ge, fun _ => reset_readMem_of_lt⟩

/-! ### Reset with an image that fits (R230-R234) -/

/-- A byte of a loaded list is read back at its place. -/
theorem Memory.read_load_add (m : Memory) (a : Nat) {bs : List Byte} {k : Nat}
    (hk : k < bs.length) : (m.load a bs).read (a + k) = bs[k] := by
  simp [Memory.read_load, hk]

/-- Loading a list leaves every address before and after it. -/
theorem Memory.read_load_of_outside (m : Memory) {a a' : Nat} {bs : List Byte}
    (h : a' < a ∨ a + bs.length ≤ a') : (m.load a bs).read a' = m.read a' := by
  rw [Memory.read_load, dif_neg (by omega)]

/-- Settles O54: all but memory is as in the reset state, with the host's keys; an address below the
image or after it reads as in the zeroed memory, the font and then 0. -/
theorem resetLoadsTheImage : Obligations.ResetLoadsTheImage := by
  intro s image hlen
  rw [load_of_fits s hlen]
  have hout {a : Nat} (ha : a < 0x200 ∨ 0x200 + image.length ≤ a) :
      (Memory.load s.zeroed.mem 0x200 image).read a = s.zeroed.readMem a :=
    Memory.read_load_of_outside _ ha
  refine ⟨reset_getV, rfl, rfl, rfl, reset_stack, rfl, rfl, pixel_blank, rfl, rfl, rfl, rfl,
    fun a hfont => ?_, fun a hge hlt => ?_, fun k => Memory.read_load_add _ 0x200, fun a hge => ?_⟩
  · exact (hout (by omega)).trans (zeroed_readMem_of_lt s hfont)
  · exact (hout (.inl hlt)).trans (zeroed_readMem_of_ge s hge)
  · exact (hout (.inr hge)).trans (zeroed_readMem_of_ge s (by omega))

end Sys2Proof.Machine
end
